-- ==== Sys2Proof/Word.lean ====
section
/-!
DEFINITION. The value types of the block: 32-bit words (command words, responses, `CRC`,
table entries), 16-bit sums and counts, bytes, and the 256-entry table.
Bit 0 is the least significant bit of every value (spec 00_scope section 6).
-/

namespace Sys2Proof

/-- A command word, a response, the CRC register or a table entry (R60, R70, R23, R21). -/
abbrev Word := BitVec 32

/-- An Adler sum or the count `REM` (R24, R25, R26); the operand `IMM16` (R62). -/
abbrev Half := BitVec 16

/-- A data byte, a byte of `OUT`, the operand `IMM8` (R62, R27). -/
abbrev Byte := BitVec 8

/-- The table `T`: 256 entries of 32 bits, addressed by an 8-bit index (R21, R40). -/
abbrev Table := Vector Word 256

end Sys2Proof
end

