-- ==== Sys2Proof/Syntax.lean ====
section
/-!
DEFINITION. The command set CKF-1 (spec 30_encoding R63): one constructor of `Instr` per row of
spec/opcode_table.json. Operands are immediates exactly as wide as their fields (R62), so an
out-of-range operand cannot be written. `Source` is a command as the assembler syntax of R68
writes it, with an operand of any size.
-/

namespace Sys2Proof

/-- The commands: what a legal command word decodes to (R63). -/
inductive Instr where
  | sysNop
  | sysRst
  | sysStat
  | sysFinfo
  | crcTinit
  | crcInit
  | crcUpd (b : Byte)
  | crcFin
  | crcRdt (i : Byte)
  | adlInit
  | adlUpd (x : Byte)
  | adlFin
  | frmBegin (n : Half)
  | frmData (x : Byte)
  | outPop
  | outCnt
  deriving DecidableEq, Repr

/-- The names of the sixteen commands, without operands (the mnemonic column of R63). -/
inductive Mnemonic where
  | sysNop | sysRst | sysStat | sysFinfo
  | crcTinit | crcInit | crcUpd | crcFin | crcRdt
  | adlInit | adlUpd | adlFin
  | frmBegin | frmData
  | outPop | outCnt
  deriving DecidableEq, Repr

/-- The three formats of R61: no operand, a byte operand, a halfword operand. -/
inductive Format where
  | noOperand
  | byteOperand
  | halfOperand
  deriving DecidableEq, Repr

/-- The command's name. -/
def Instr.mnemonic : Instr → Mnemonic
  | .sysNop => .sysNop
  | .sysRst => .sysRst
  | .sysStat => .sysStat
  | .sysFinfo => .sysFinfo
  | .crcTinit => .crcTinit
  | .crcInit => .crcInit
  | .crcUpd _ => .crcUpd
  | .crcFin => .crcFin
  | .crcRdt _ => .crcRdt
  | .adlInit => .adlInit
  | .adlUpd _ => .adlUpd
  | .adlFin => .adlFin
  | .frmBegin _ => .frmBegin
  | .frmData _ => .frmData
  | .outPop => .outPop
  | .outCnt => .outCnt

/-- The command's operand as a number, where it has one (R62). -/
def Instr.operand : Instr → Option Nat
  | .crcUpd b => some b.toNat
  | .crcRdt i => some i.toNat
  | .adlUpd x => some x.toNat
  | .frmBegin n => some n.toNat
  | .frmData x => some x.toNat
  | .sysNop | .sysRst | .sysStat | .sysFinfo | .crcTinit | .crcInit | .crcFin => none
  | .adlInit | .adlFin | .outPop | .outCnt => none

/-- A command as a host writes it down (R68): a mnemonic and, perhaps, an unsigned number. -/
structure Source where
  mnemonic : Mnemonic
  operand : Option Nat
  deriving DecidableEq, Repr

end Sys2Proof
end

