-- ==== Sys2Proof/Machine/Operands.lean ====
section
/-!
DEFINITION. Operand forms and byte orders: the instruction fields of spec 30_encoding R61 and R62,
zero extension, `LE16` and `BE32` of 00_scope section 6, and the byte orders of 20_memory R43, R44.
Every value is unsigned; nothing is sign-extended anywhere in the block.
-/

namespace Sys2Proof.Machine

/-- The format column of R63; the opcode alone determines the format (R61). -/
def formatOf : Mnemonic → Format
  | .sysNop | .sysRst | .sysStat | .sysFinfo => .noOperand
  | .crcTinit | .crcInit | .crcFin => .noOperand
  | .crcUpd | .crcRdt => .byteOperand
  | .adlInit | .adlFin => .noOperand
  | .adlUpd => .byteOperand
  | .frmBegin => .halfOperand
  | .frmData => .byteOperand
  | .outPop | .outCnt => .noOperand

/-- The opcode field, bits 31:24 (R61). -/
def opcodeField (w : Word) : Byte := w.extractLsb' 24 8

/-- `IMM8 = W[7:0]` (R62). -/
def imm8 (w : Word) : Byte := w.extractLsb' 0 8

/-- `IMM16 = W[15:0]` (R62). -/
def imm16 (w : Word) : Half := w.extractLsb' 0 16

/-- Are the bits that the format marks "zero" all 0? (R61, R65) -/
def reservedZero : Format → Word → Bool
  | .noOperand, w => w.extractLsb' 0 24 == 0
  | .byteOperand, w => w.extractLsb' 8 16 == 0
  | .halfOperand, w => w.extractLsb' 16 8 == 0

/-- `zext_32` of a byte. -/
def zextByte (b : Byte) : Word := b.setWidth 32

/-- `zext_32` of a 16-bit value. -/
def zextHalf (h : Half) : Word := h.setWidth 32

/-- `LE16(v)`: low byte first (R43). -/
def le16 (v : Half) : List Byte := [v.extractLsb' 0 8, v.extractLsb' 8 8]

/-- `BE32(v)`: most significant byte first (R43). -/
def be32 (v : Word) : List Byte :=
  [v.extractLsb' 24 8, v.extractLsb' 16 8, v.extractLsb' 8 8, v.extractLsb' 0 8]

/-- The low 8 bits of a word, `v & 0xFF` as an 8-bit number (R41, R82). -/
def lowByte (v : Word) : Byte := (v &&& 0xFF).setWidth 8

end Sys2Proof.Machine
end

