-- ==== Sys2Proof/WellFormed.lean ====
section
/-!
DEFINITION. Which commands are well formed (spec 30_encoding R61, R62, R68): a command has an
operand exactly when its format has a field for one, and the operand fits the field (0 to 255 for
format B, 0 to 65535 for format H). A `Source` can fail the check. An `Instr` cannot: its operands
are exactly as wide as the fields, which is what R62 says of every legal word.
-/

namespace Sys2Proof

/-- Does the operand fit the format's field? (R61, R68) -/
def Format.fits : Format → Option Nat → Bool
  | .noOperand, none => true
  | .noOperand, some _ => false
  | .byteOperand, none => false
  | .byteOperand, some v => decide (v < 256)
  | .halfOperand, none => false
  | .halfOperand, some v => decide (v < 65536)

/-- A written command is well formed when its operand fits its mnemonic's format (R68). -/
def Source.wellFormed (c : Source) : Bool :=
  (Machine.formatOf c.mnemonic).fits c.operand

/-- The same check on a command. -/
def Instr.wellFormed (i : Instr) : Bool :=
  (Machine.formatOf i.mnemonic).fits i.operand

end Sys2Proof
end

