-- ==== Sys2Proof/Decode.lean ====
section
/-!
DEFINITION. The decoder and the encoder of the command set (spec 30_encoding R60 to R67).
`decode` is total on all 2^32 words and reads no state (R64); a word that is no command is refused
by name. `encode` is written from the same table, R63.
-/

namespace Sys2Proof

open Sys2Proof.Machine

/-- The two cases in which a word is illegal (R65). -/
inductive Illegal where
  /-- R65 (a): the opcode is not one of the sixteen. -/
  | unassignedOpcode
  /-- R65 (b): a bit that the command's format marks "zero" is 1. -/
  | reservedBits
  deriving DecidableEq, Repr

/-- What `decode` returns: a command, or `ILLEGAL` with its cause (R64). -/
inductive Decoded where
  | command (i : Instr)
  | illegal (why : Illegal)
  deriving DecidableEq, Repr

/-- The `OPC` column of R63. -/
def opcodeOf : Mnemonic → Byte
  | .sysNop => 0x01
  | .sysRst => 0x02
  | .sysStat => 0x03
  | .sysFinfo => 0x04
  | .crcTinit => 0x10
  | .crcInit => 0x11
  | .crcUpd => 0x12
  | .crcFin => 0x13
  | .crcRdt => 0x14
  | .adlInit => 0x20
  | .adlUpd => 0x21
  | .adlFin => 0x22
  | .frmBegin => 0x30
  | .frmData => 0x31
  | .outPop => 0x38
  | .outCnt => 0x39

/-- The `mask` column of R63. -/
def rowMask : Mnemonic → Word
  | .sysNop | .sysRst | .sysStat | .sysFinfo => 0xFFFFFFFF
  | .crcTinit | .crcInit | .crcFin => 0xFFFFFFFF
  | .crcUpd | .crcRdt => 0xFFFFFF00
  | .adlInit | .adlFin => 0xFFFFFFFF
  | .adlUpd => 0xFFFFFF00
  | .frmBegin => 0xFFFF0000
  | .frmData => 0xFFFFFF00
  | .outPop | .outCnt => 0xFFFFFFFF

/-- The `match` column of R63. -/
def rowMatch : Mnemonic → Word
  | .sysNop => 0x01000000
  | .sysRst => 0x02000000
  | .sysStat => 0x03000000
  | .sysFinfo => 0x04000000
  | .crcTinit => 0x10000000
  | .crcInit => 0x11000000
  | .crcUpd => 0x12000000
  | .crcFin => 0x13000000
  | .crcRdt => 0x14000000
  | .adlInit => 0x20000000
  | .adlUpd => 0x21000000
  | .adlFin => 0x22000000
  | .frmBegin => 0x30000000
  | .frmData => 0x31000000
  | .outPop => 0x38000000
  | .outCnt => 0x39000000

/-- The row of R63 that an opcode selects, if any. -/
def mnemonicOf (opc : Byte) : Option Mnemonic :=
  match opc.toNat with
  | 0x01 => some .sysNop
  | 0x02 => some .sysRst
  | 0x03 => some .sysStat
  | 0x04 => some .sysFinfo
  | 0x10 => some .crcTinit
  | 0x11 => some .crcInit
  | 0x12 => some .crcUpd
  | 0x13 => some .crcFin
  | 0x14 => some .crcRdt
  | 0x20 => some .adlInit
  | 0x21 => some .adlUpd
  | 0x22 => some .adlFin
  | 0x30 => some .frmBegin
  | 0x31 => some .frmData
  | 0x38 => some .outPop
  | 0x39 => some .outCnt
  | _ => none

/-- The command of a row, its operand taken from the word by R62. -/
def commandOf (w : Word) : Mnemonic → Instr
  | .sysNop => .sysNop
  | .sysRst => .sysRst
  | .sysStat => .sysStat
  | .sysFinfo => .sysFinfo
  | .crcTinit => .crcTinit
  | .crcInit => .crcInit
  | .crcUpd => .crcUpd (imm8 w)
  | .crcFin => .crcFin
  | .crcRdt => .crcRdt (imm8 w)
  | .adlInit => .adlInit
  | .adlUpd => .adlUpd (imm8 w)
  | .adlFin => .adlFin
  | .frmBegin => .frmBegin (imm16 w)
  | .frmData => .frmData (imm8 w)
  | .outPop => .outPop
  | .outCnt => .outCnt

/-- `decode(W)` (R64, R65). -/
def decode (w : Word) : Decoded :=
  match mnemonicOf (opcodeField w) with
  | none => .illegal .unassignedOpcode
  | some m =>
    if reservedZero (formatOf m) w then .command (commandOf w m) else .illegal .reservedBits

/-- `decode` as an option. -/
def decode? (w : Word) : Option Instr :=
  match decode w with
  | .command i => some i
  | .illegal _ => none

/-- The opcode in bits 31:24 and nothing else: format N (R61). -/
def opcodeWord (m : Mnemonic) : Word := zextByte (opcodeOf m) <<< 24

/-- The opcode with a byte operand in bits 7:0: format B (R61). -/
def byteWord (m : Mnemonic) (b : Byte) : Word := opcodeWord m ||| zextByte b

/-- The opcode with a halfword operand in bits 15:0: format H (R61). -/
def halfWord (m : Mnemonic) (n : Half) : Word := opcodeWord m ||| zextHalf n

/-- The command word of a command (R61 to R63). -/
def encode : Instr → Word
  | .sysNop => opcodeWord .sysNop
  | .sysRst => opcodeWord .sysRst
  | .sysStat => opcodeWord .sysStat
  | .sysFinfo => opcodeWord .sysFinfo
  | .crcTinit => opcodeWord .crcTinit
  | .crcInit => opcodeWord .crcInit
  | .crcUpd b => byteWord .crcUpd b
  | .crcFin => opcodeWord .crcFin
  | .crcRdt i => byteWord .crcRdt i
  | .adlInit => opcodeWord .adlInit
  | .adlUpd x => byteWord .adlUpd x
  | .adlFin => opcodeWord .adlFin
  | .frmBegin n => halfWord .frmBegin n
  | .frmData x => byteWord .frmData x
  | .outPop => opcodeWord .outPop
  | .outCnt => opcodeWord .outCnt

/-- The host's question: the instruction read from an instruction whose bits are `w`, of which the
table gives `nbits`. Every command word is 32 bits (R60), so a word with a bit above bit 31, or a
row wider than 32 bits, is no command word. -/
def decodeTableWord (nbits w : Nat) : Option Instr :=
  if nbits ≤ 32 ∧ w < 2 ^ nbits then decode? (BitVec.ofNat 32 w) else none

end Sys2Proof
end

