-- ==== Sys2Proof/Config.lean ====
section
/-!
DEFINITION. What the spec leaves open: the one parameter `OUT_DEPTH` (00_scope R4, 93 U1) and the free
values that stand for the unspecified contents of the table (93 U2). The constants of R4, which may not
vary, stand in Machine/Constants.lean.
-/

namespace Sys2Proof

/-- The least `OUT_DEPTH` the spec admits (R4). -/
def Config.outDepthMin : Nat := 11

/-- The greatest `OUT_DEPTH` the spec admits (R4). -/
def Config.outDepthMax : Nat := 4294967295

/-- DESIGN CHOICE (log entry 1). How far `OUT_DEPTH` lies above 11: a number with no body, so no
proof can see it. Its type is the whole range 11 to 2^32 - 1 that R4 admits, shifted down by 11. -/
opaque Config.outDepthAbove : Fin 4294967285

/-- The capacity of `OUT` that the machine has at reset (R4): any admissible depth. -/
def Config.outDepth : Nat := Config.outDepthAbove.val + 11

/-- DESIGN CHOICE (log entry 2). What the table holds while it is unspecified (R22, R34, 93 U2):
entry `i` after the `k`-th reset, a value with no body, so no proof can see it. -/
opaque Config.freeEntry : Nat → Byte → Word

end Sys2Proof
end

