-- ==== Sys2Proof/Machine/Constants.lean ====
section
/-!
DEFINITION. The constants that the source fixes (spec 00_scope R4).
-/

namespace Sys2Proof.Machine

/-- `POLY`, the reflected CRC-32 polynomial (R4, R80). -/
def crcPoly : Word := 0xEDB88320

/-- `CRC_INIT`, the initial CRC register (R4, R80). -/
def crcInitial : Word := 0xFFFFFFFF

/-- `CRC_XOROUT`, the final XOR of the CRC (R4, R80). -/
def crcXorOut : Word := 0xFFFFFFFF

/-- `MOD`, the Adler-32 modulus (R4, R100). -/
def adlerMod : Nat := 65521

/-- `(ADL_A0, ADL_B0)`, the initial sums a and b (R4, R100). -/
def adlerInitial : Half × Half := (1, 0)

/-- `ZHDR`, the stream header (R4, R116). -/
def streamHeader : List Byte := [0x78, 0x01]

/-- `BHDR`, the final stored block marker (R4, R117). -/
def blockHeader : List Byte := [0x01]

/-- `LEN_MAX`, the largest payload of one frame (R4, R121). -/
def lenMax : Nat := 65535

/-- `WRAP_OVERHEAD`, the bytes the framer adds to a payload (R4, R126). -/
def wrapOverhead : Nat := 11

end Sys2Proof.Machine
end

