-- ==== Sys2Proof/Machine/Algorithms.lean ====
section
/-!
DEFINITION. The pure functions of spec 00_scope section 6: `tbl`, `crc_step`, `crc32` (40_crc32 R81
to R83), `adler_step`, `adler32` (41_adler32 R101, R102), `zstore` (42_stored_framer R115), and the
tables that `T` can hold.
-/

namespace Sys2Proof.Machine

/-- One of the eight rounds of R81: the low bit is tested before the logical shift. -/
def tblRound (c : Word) : Word :=
  if c.getLsbD 0 then (c >>> 1) ^^^ crcPoly else c >>> 1

/-- `k` rounds. -/
def tblRounds : Nat → Word → Word
  | 0, c => c
  | k + 1, c => tblRounds k (tblRound c)

/-- `tbl(i)` (R81). -/
def tbl (i : Byte) : Word := tblRounds 8 (zextByte i)

/-- The index of the entry that a byte selects: `(r xor zext_32(b)) & 0xFF` (R82, R41). -/
def crcIndex (r : Word) (b : Byte) : Byte := lowByte (r ^^^ zextByte b)

/-- `crc_step(r, b)` (R82). -/
def crcStep (r : Word) (b : Byte) : Word := tbl (crcIndex r b) ^^^ (r >>> 8)

/-- The running register after the bytes `s`, from the register `r` (the loop of R83). -/
def crcFeed (r : Word) (s : List Byte) : Word := s.foldl crcStep r

/-- `crc32(s)` (R83). -/
def crc32 (s : List Byte) : Word := crcFeed crcInitial s ^^^ crcXorOut

/-- `adler_step(a, b, x)`: `a'` first, then `b` with the new `a'` (R101). The sums are added as
integers and reduced after each addition; the result of `mod 65521` fits 16 bits (R106). -/
def adlerStep (p : Half × Half) (x : Byte) : Half × Half :=
  let a' := (p.1.toNat + x.toNat) % adlerMod
  let b' := (p.2.toNat + a') % adlerMod
  (BitVec.ofNat 16 a', BitVec.ofNat 16 b')

/-- The running sums after the bytes `s`, from the sums `p` (the loop of R102). -/
def adlerFeed (p : Half × Half) (s : List Byte) : Half × Half := s.foldl adlerStep p

/-- `(b << 16) | a` (R100, R102). -/
def adlerWord (p : Half × Half) : Word := (zextHalf p.2 <<< 16) ||| zextHalf p.1

/-- `adler32(s)` (R102). -/
def adler32 (s : List Byte) : Word :=
  adlerWord (adlerFeed adlerInitial s)

/-- The seven bytes before the payload of a frame of `n` bytes: stream header, block header, `LEN`
and `NLEN`, both low byte first (R116 to R118, 20_memory R43, R44). -/
def frameHead (n : Half) : List Byte :=
  streamHeader ++ blockHeader ++ le16 n ++ le16 (~~~n)

/-- `zstore(s)` (R115), for a payload of at most 65535 bytes. -/
def zstore (s : List Byte) : List Byte :=
  frameHead (BitVec.ofNat 16 s.length) ++ s ++ be32 (adler32 s)

/-- The table with entry `g i` at every index `i`. -/
def tableOf (g : Byte → Word) : Table :=
  ⟨⟨(List.range 256).map fun k => g (BitVec.ofNat 8 k)⟩, by simp⟩

/-- Entry `i` of a table; every 8-bit index is in range (20_memory R41). -/
def tableEntry (t : Table) (i : Byte) : Word := t[i.toNat]'i.isLt

/-- The CRC lookup table: entry `i` is `tbl(i)` (R21). -/
def crcTable : Table := tableOf tbl

/-- What the table holds after the `k`-th reset: free values (R34, log entry 2). -/
def freeTable (k : Nat) : Table := tableOf (Config.freeEntry k)

end Sys2Proof.Machine
end

