-- ==== Sys2Proof/Machine/State.lean ====
section
/-!
DEFINITION. The state of one block (spec 10_state R20), as plain data, and the state after reset
(R34). The fields `t` to `finfo` are exactly the twelve components of R20. The last four are the
model's own: the parameter `OUT_DEPTH`, a counter for free values, and the two sides of the command
port, which R9 gives as the argument and the result of `step`.
-/

namespace Sys2Proof.Machine

/-- What the host can do to the block between two commands (R8, R195, R208). -/
inductive HostEvent where
  /-- Issue one command word. -/
  | command (w : Word)
  /-- Cause the hardware reset event. -/
  | reset
  deriving DecidableEq, Repr

structure State where
  /-- `T[0..255]`, the CRC lookup table (R21). -/
  t : Table
  /-- `TV`, table valid (R22). -/
  tv : Bool
  /-- `CRC`, the CRC running register, before the final XOR (R23). -/
  crc : Word
  /-- `A`, the Adler unit's sum a (R24). -/
  a : Half
  /-- `B`, the Adler unit's sum b (R24). -/
  b : Half
  /-- `FA`, the framer's private sum a (R25). -/
  fa : Half
  /-- `FB`, the framer's private sum b (R25). -/
  fb : Half
  /-- `REM`, payload bytes the open frame still expects; 0 when no frame is open (R26). -/
  rem : Half
  /-- `OUT`, the output byte queue, head first (R27). -/
  out : List Byte
  /-- `FLT`, a fault is latched (R28). -/
  flt : Bool
  /-- `FCODE`, the code of the latched fault (R28, R171). -/
  fcode : BitVec 4
  /-- `FINFO`, the command word that faulted (R28). -/
  finfo : Word
  /-- The parameter `OUT_DEPTH` (R4); no step changes it (log entry 1). -/
  outDepth : Nat
  /-- How many free tables resets have drawn (log entry 2). -/
  freeIx : Nat
  /-- What the host will do next, oldest first (R8, R207; log entry 3). -/
  pending : List HostEvent
  /-- The responses returned to the host so far, oldest first (R70, R207; log entry 4). -/
  responses : List Word
  deriving DecidableEq, Repr

/-- There is no way for the block to stop: a fault of the spec is a recorded event after which every
word still has a step (R170, R191), so it is a next state, and nothing raises a model fault. Having
no constructor is safe: the model never stops where the block goes on (log entry 9). -/
inductive Fault where
  deriving DecidableEq, Repr

/-- Why the model would have no meaning for a command. -/
inductive Refusal where
  /-- Raised by a refused arm of `exec` alone, for a command whose meaning is not written. Safe. No
  arm of this model raises it: all sixteen commands have their meaning. -/
  | notModelled (mnemonic : String)
  deriving DecidableEq, Repr

/-- The machine right after reset (R34). `T` is unspecified: a free table. `OUT_DEPTH` is any
admissible depth. The host has sent nothing and received nothing yet. -/
def State.reset : State where
  t := freeTable 0
  tv := false
  crc := 0xFFFFFFFF
  a := 1
  b := 0
  fa := 1
  fb := 0
  rem := 0
  out := []
  flt := false
  fcode := 0
  finfo := 0
  outDepth := Config.outDepth
  freeIx := 1
  pending := []
  responses := []

end Sys2Proof.Machine
end

