-- ==== Sys2Proof/Machine/Flags.lean ====
section
/-!
DEFINITION. The `STATUS` view and its two derived flags (spec 10_state R29). No command of the block
computes any other flag: "These four flags are the only flags of the block; no arithmetic command
sets a condition code."
-/

namespace Sys2Proof.Machine

/-- One bit as a 32-bit word. -/
def bitWord (b : Bool) : Word := (BitVec.ofBool b).setWidth 32

/-- `FBSY`, bit 1 of `STATUS`: a frame is open (R29). -/
def State.fbsy (s : State) : Bool := s.rem != 0

/-- `ONE`, bit 3 of `STATUS`: the output queue is not empty (R29). -/
def State.one (s : State) : Bool := decide (s.out.length > 0)

/-- `STATUS` (R29): `(REM << 16) | (FCODE << 4) | (ONE << 3) | (FLT << 2) | (FBSY << 1) | TV`. -/
def State.status (s : State) : Word :=
  (zextHalf s.rem <<< 16) ||| (s.fcode.setWidth 32 <<< 4) ||| (bitWord s.one <<< 3)
    ||| (bitWord s.flt <<< 2) ||| (bitWord s.fbsy <<< 1) ||| bitWord s.tv

end Sys2Proof.Machine
end

