-- ==== Sys2Proof/Machine/Ops.lean ====
section
/-!
DEFINITION. The named operations that the meanings are written in: register writes, `TblInit` and
`TblRead` (spec 40_crc32 R84), `OutFree`, `OutPush` and `OutPop` (20_memory R42), `respond`
(30_encoding R70), fault entry (60_exceptions R177), the rule that a faulted block drops commands
(R178), and reset (10_state R34).
-/

namespace Sys2Proof.Machine

/-- The outcome type of this machine. -/
abbrev Result := Host.Outcome State Fault Refusal

/-- `CRC <- v`. -/
def State.setCrc (s : State) (v : Word) : State := { s with crc := v }

/-- `A <- p.1; B <- p.2`. -/
def State.setSums (s : State) (p : Half × Half) : State := { s with a := p.1, b := p.2 }

/-- `FA <- p.1; FB <- p.2`. -/
def State.setFrameSums (s : State) (p : Half × Half) : State := { s with fa := p.1, fb := p.2 }

/-- `REM <- n`. -/
def State.setRem (s : State) (n : Half) : State := { s with rem := n }

/-- `TblInit()`: all 256 entries and the valid flag, in one step (R84). -/
def State.tblInit (s : State) : State := { s with t := crcTable, tv := true }

/-- What `TblRead` does to the table before it reads: `TblInit()` if `TV = 0` (R84). -/
def State.tblReady (s : State) : State := if s.tv then s else s.tblInit

/-- What `TblRead(i)` returns: entry `i` of the table made ready (R84). -/
def State.tblRead (s : State) (i : Byte) : Word := tableEntry s.tblReady.t i

/-- `OutFree()` (R42). -/
def State.outFree (s : State) : Nat := s.outDepth - s.out.length

/-- `OutPush` of each byte of `bs` in order, at the tail (R42). -/
def State.outPush (s : State) (bs : List Byte) : State := { s with out := s.out ++ bs }

/-- What is left of the queue after `OutPop()` (R42). -/
def State.outDrop (s : State) : State := { s with out := s.out.drop 1 }

/-- `respond(v)`: the host receives `v` (R70). -/
def State.respond (s : State) (v : Word) : State := { s with responses := s.responses ++ [v] }

/-- The host events still to come. -/
def State.setPending (s : State) (p : List HostEvent) : State := { s with pending := p }

/-- The four causes of a fault (R171). -/
inductive Cause where
  | illegalCmd
  | frmOpen
  | frmClosed
  | outOvf
  deriving DecidableEq, Repr

/-- The `FCODE` column of R171. -/
def faultCode : Cause → BitVec 4
  | .illegalCmd => 1
  | .frmOpen => 2
  | .frmClosed => 3
  | .outOvf => 4

/-- The writes of fault entry (R177): the fault record and nothing else. -/
def State.latch (s : State) (c : Cause) (w : Word) : State :=
  { s with flt := true, fcode := faultCode c, finfo := w }

/-- `raise Fault(code)` in the step that executes the word `w` (R177): no other effect of the
command takes place, and it returns no response. -/
def raiseFault (c : Cause) (w : Word) (s : State) : Result := .next (s.latch c w)

/-- A command that is not one of the three of R178: dropped while `FLT = 1`, with no change and no
response; otherwise it acts. -/
def unlessFaulted (s : State) (act : Result) : Result := if s.flt then .next s else act

/-- An illegal word raises `ILLEGAL_CMD` (R172), and is dropped while faulted (R178, R180). -/
def illegalCommand (w : Word) (s : State) : Result :=
  unlessFaulted s (raiseFault .illegalCmd w s)

/-- Reset, of either kind (R34, R195): every piece of the block's state at its reset value. `T`
becomes unspecified, a fresh free table. What the host is about to do, what it has received and the
parameter `OUT_DEPTH` are no state of the block and stay. -/
def State.resetBlock (s : State) : State :=
  { s with
    t := freeTable s.freeIx
    tv := false
    crc := 0xFFFFFFFF
    a := 1
    b := 0
    fa := 1
    fb := 0
    rem := 0
    out := []
    flt := false
    fcode := 0
    finfo := 0
    freeIx := s.freeIx + 1 }

end Sys2Proof.Machine
end

