-- ==== Sys2Proof/Machine/Adler.lean ====
section
/-!
DEFINITION. The Adler unit's commands `ADL.INIT`, `ADL.UPD`, `ADL.FIN` (spec 41_adler32 R103 to
R105).
-/

namespace Sys2Proof.Machine

/-- `ADL.INIT` (R103): `A <- 1; B <- 0`. -/
def execAdlInit (s : State) : Result :=
  unlessFaulted s (.next (s.setSums adlerInitial))

/-- `ADL.UPD x` (R104): `(A, B) <- adler_step(A, B, x)`. -/
def execAdlUpd (x : Byte) (s : State) : Result :=
  unlessFaulted s (.next (s.setSums (adlerStep (s.a, s.b) x)))

/-- `ADL.FIN` (R105): responds `(B << 16) | A` and writes nothing. -/
def execAdlFin (s : State) : Result :=
  unlessFaulted s (.next (s.respond (adlerWord (s.a, s.b))))

end Sys2Proof.Machine
end

