-- ==== Sys2Proof/Machine/Crc.lean ====
section
/-!
DEFINITION. The CRC unit's commands `CRC.TINIT`, `CRC.INIT`, `CRC.UPD`, `CRC.FIN`, `CRC.RDT`
(spec 40_crc32 R85 to R89).
-/

namespace Sys2Proof.Machine

/-- `CRC.TINIT` (R85): `TblInit()`. -/
def execCrcTinit (s : State) : Result := unlessFaulted s (.next s.tblInit)

/-- `CRC.INIT` (R86): `CRC <- 0xFFFFFFFF`. -/
def execCrcInit (s : State) : Result := unlessFaulted s (.next (s.setCrc crcInitial))

/-- `CRC.UPD b` (R87): `CRC <- TblRead((CRC xor b) & 0xFF) xor (CRC >> 8)`. -/
def execCrcUpd (b : Byte) (s : State) : Result :=
  unlessFaulted s
    (.next (s.tblReady.setCrc (s.tblRead (crcIndex s.crc b) ^^^ (s.crc >>> 8))))

/-- `CRC.FIN` (R88): responds `CRC xor 0xFFFFFFFF` and writes nothing. -/
def execCrcFin (s : State) : Result :=
  unlessFaulted s (.next (s.respond (s.crc ^^^ crcXorOut)))

/-- `CRC.RDT i` (R89): responds `TblRead(i)`. -/
def execCrcRdt (i : Byte) (s : State) : Result :=
  unlessFaulted s (.next (s.tblReady.respond (s.tblRead i)))

end Sys2Proof.Machine
end

