-- ==== Sys2Proof/Machine/Framer.lean ====
section
/-!
DEFINITION. The framer's commands `FRM.BEGIN` and `FRM.DATA` (spec 42_stored_framer R122, R123) with
their faults in the order of 60_exceptions R176: sequence, then room, each tested before anything is
pushed (R175). The word a fault records is the command's own word, `encode` of it (log entry 5).
-/

namespace Sys2Proof.Machine

/-- The bytes `FRM.BEGIN n` pushes: the seven leading bytes, and for an empty payload the trailer
`adler32([]) = 0x00000001` as well (R122). -/
def beginBytes (n : Half) : List Byte :=
  if n = 0 then frameHead n ++ [0x00, 0x00, 0x00, 0x01] else frameHead n

/-- The room `FRM.BEGIN n` needs: 11 when `n = 0`, else 7 (R122, R175). -/
def beginNeed (n : Half) : Nat := if n = 0 then 11 else 7

/-- The effect of `FRM.BEGIN n` when no test fails (R122). -/
def openFrame (n : Half) (s : State) : State :=
  ((s.outPush (beginBytes n)).setFrameSums adlerInitial).setRem n

/-- `FRM.BEGIN n` (R122). -/
def execFrmBegin (n : Half) (s : State) : Result :=
  unlessFaulted s
    (if s.rem ≠ 0 then raiseFault .frmOpen (encode (.frmBegin n)) s
     else if s.outFree < beginNeed n then raiseFault .outOvf (encode (.frmBegin n)) s
     else .next (openFrame n s))

/-- The room `FRM.DATA` needs with `REM` payload bytes still expected: 5 for the last, else 1
(R123, R175). -/
def dataNeed (rem : Half) : Nat := if rem = 1 then 5 else 1

/-- The effect of `FRM.DATA x` when no test fails (R123): the payload byte, the sums, the count, and
the trailer of the new sums when this was the last byte. -/
def acceptByte (x : Byte) (s : State) : State :=
  let p := adlerStep (s.fa, s.fb) x
  let s' := ((s.outPush [x]).setFrameSums p).setRem (s.rem - 1)
  if s.rem = 1 then s'.outPush (be32 (adlerWord p)) else s'

/-- `FRM.DATA x` (R123). -/
def execFrmData (x : Byte) (s : State) : Result :=
  unlessFaulted s
    (if s.rem = 0 then raiseFault .frmClosed (encode (.frmData x)) s
     else if s.outFree < dataNeed s.rem then raiseFault .outOvf (encode (.frmData x)) s
     else .next (acceptByte x s))

end Sys2Proof.Machine
end

