-- ==== Sys2Proof/Machine/Output.lean ====
section
/-!
DEFINITION. The output-queue commands `OUT.POP` and `OUT.CNT` (spec 43_system_and_output R139, R140).
-/

namespace Sys2Proof.Machine

/-- The answer of `OUT.POP` to a queue: bit 8 set and the head byte, or 0 when it is empty (R139). -/
def popAnswer : List Byte → Word
  | [] => 0x00000000
  | x :: _ => 0x00000100 ||| zextByte x

/-- `OUT.POP` (R139): removes the head if there is one and responds. -/
def execOutPop (s : State) : Result :=
  unlessFaulted s (.next (s.outDrop.respond (popAnswer s.out)))

/-- `OUT.CNT` (R140): responds `len(OUT)` and writes nothing. -/
def execOutCnt (s : State) : Result :=
  unlessFaulted s (.next (s.respond (BitVec.ofNat 32 s.out.length)))

end Sys2Proof.Machine
end

