-- ==== Sys2Proof/Machine/System.lean ====
section
/-!
DEFINITION. The system commands `SYS.NOP`, `SYS.RST`, `SYS.STAT`, `SYS.FINFO`
(spec 43_system_and_output R135 to R138, R141).
-/

namespace Sys2Proof.Machine

/-- `SYS.NOP` (R135): nothing; dropped while faulted, with the same visible result. -/
def execSysNop (s : State) : Result := unlessFaulted s (.next s)

/-- `SYS.RST` (R136): every piece of state to its reset value, faulted or not. -/
def execSysRst (s : State) : Result := .next s.resetBlock

/-- `SYS.STAT` (R137): responds `STATUS`, faulted or not, and writes nothing. -/
def execSysStat (s : State) : Result := .next (s.respond s.status)

/-- `SYS.FINFO` (R138): responds `FINFO`, faulted or not, and writes nothing. -/
def execSysFinfo (s : State) : Result := .next (s.respond s.finfo)

end Sys2Proof.Machine
end

