-- ==== Sys2Proof/Machine/Dispatch.lean ====
section
/-!
DEFINITION. "execute d" of spec 00_scope R9: one arm per command, each one call of its meaning.
-/

namespace Sys2Proof.Machine

def exec (i : Instr) (s : State) : Host.Outcome State Fault Refusal :=
  match i with
  | .sysNop => Sys2Proof.Machine.execSysNop s
  | .sysRst => Sys2Proof.Machine.execSysRst s
  | .sysStat => Sys2Proof.Machine.execSysStat s
  | .sysFinfo => Sys2Proof.Machine.execSysFinfo s
  | .crcTinit => Sys2Proof.Machine.execCrcTinit s
  | .crcInit => Sys2Proof.Machine.execCrcInit s
  | .crcUpd b => Sys2Proof.Machine.execCrcUpd b s
  | .crcFin => Sys2Proof.Machine.execCrcFin s
  | .crcRdt k => Sys2Proof.Machine.execCrcRdt k s
  | .adlInit => Sys2Proof.Machine.execAdlInit s
  | .adlUpd x => Sys2Proof.Machine.execAdlUpd x s
  | .adlFin => Sys2Proof.Machine.execAdlFin s
  | .frmBegin n => Sys2Proof.Machine.execFrmBegin n s
  | .frmData x => Sys2Proof.Machine.execFrmData x s
  | .outPop => Sys2Proof.Machine.execOutPop s
  | .outCnt => Sys2Proof.Machine.execOutCnt s

end Sys2Proof.Machine
end

