-- ==== Sys2Proof/Machine/Port.lean ====
section
/-!
DEFINITION. The command port: how one host event acts on the block (spec 00_scope R9, 70_reset R195,
60_exceptions R189). `takeEvent` is the whole step; Machine/Step.lean only calls it.
-/

namespace Sys2Proof.Machine

/-- The step on one command word (R9): decode it; an illegal word faults, a command executes. The
test of `FLT` that R9 makes first stands in every meaning that a faulted block drops. -/
def execWord (w : Word) (s : State) : Result :=
  match decode w with
  | .command i => exec i s
  | .illegal _ => illegalCommand w s

/-- The next host event acts on the block and is consumed. With none pending the block is idle with
its state held (R189). -/
def takeEvent (s : State) : Result :=
  match s.pending with
  | [] => .next s
  | .command w :: rest => execWord w (s.setPending rest)
  | .reset :: rest => .next (s.setPending rest).resetBlock

/-- The host sends the word `w` next, before anything it was going to send. -/
def State.send (s : State) (w : Word) : State :=
  s.setPending (.command w :: s.pending)

end Sys2Proof.Machine
end

