-- ==== Sys2Proof/Machine/Step.lean ====
section
/-!
DEFINITION. One step of the machine (spec 00_scope R9): the next host event.
-/

namespace Sys2Proof.Machine

/-- One step: the next event of the host, a command word or the hardware reset. -/
def step (s : State) : Host.Outcome State Fault Refusal := takeEvent s

/-- The block fetches nothing (R31): its next command is the next word the host sends. `w` is put at
the head of the host's pending events, so that the very next step takes exactly it. A command word
is one 32-bit number (R60), so `nbits` plays no part. -/
def State.withFetchWord (s : State) (_nbits w : Nat) : State := s.send (BitVec.ofNat 32 w)

end Sys2Proof.Machine
end

