-- ==== Sys2Proof/Machine/Assembler.lean ====
section
/-!
DEFINITION. The textual form of a command and the six macros (spec 30_encoding R68, R69). A listing
is how the spec writes programs down; nothing here is behaviour of the block (92 D12). A line is
a list of characters. Where R68 does not say how the parts are set apart, spaces do (log entry 11).
-/

namespace Sys2Proof.Machine

/-- The mnemonic column of R63. -/
def spelling : Mnemonic → List Char
  | .sysNop => ['S', 'Y', 'S', '.', 'N', 'O', 'P']
  | .sysRst => ['S', 'Y', 'S', '.', 'R', 'S', 'T']
  | .sysStat => ['S', 'Y', 'S', '.', 'S', 'T', 'A', 'T']
  | .sysFinfo => ['S', 'Y', 'S', '.', 'F', 'I', 'N', 'F', 'O']
  | .crcTinit => ['C', 'R', 'C', '.', 'T', 'I', 'N', 'I', 'T']
  | .crcInit => ['C', 'R', 'C', '.', 'I', 'N', 'I', 'T']
  | .crcUpd => ['C', 'R', 'C', '.', 'U', 'P', 'D']
  | .crcFin => ['C', 'R', 'C', '.', 'F', 'I', 'N']
  | .crcRdt => ['C', 'R', 'C', '.', 'R', 'D', 'T']
  | .adlInit => ['A', 'D', 'L', '.', 'I', 'N', 'I', 'T']
  | .adlUpd => ['A', 'D', 'L', '.', 'U', 'P', 'D']
  | .adlFin => ['A', 'D', 'L', '.', 'F', 'I', 'N']
  | .frmBegin => ['F', 'R', 'M', '.', 'B', 'E', 'G', 'I', 'N']
  | .frmData => ['F', 'R', 'M', '.', 'D', 'A', 'T', 'A']
  | .outPop => ['O', 'U', 'T', '.', 'P', 'O', 'P']
  | .outCnt => ['O', 'U', 'T', '.', 'C', 'N', 'T']

/-- The sixteen mnemonics, in the order of R63. -/
def mnemonics : List Mnemonic :=
  [.sysNop, .sysRst, .sysStat, .sysFinfo, .crcTinit, .crcInit, .crcUpd, .crcFin, .crcRdt,
   .adlInit, .adlUpd, .adlFin, .frmBegin, .frmData, .outPop, .outCnt]

/-- The command of a written command whose operand fits its field (R68); none otherwise. -/
def assemble (c : Source) : Option Instr :=
  if c.wellFormed then
    some (commandOf (BitVec.ofNat 32 (c.operand.getD 0)) c.mnemonic)
  else none

/-- The value of a decimal digit. -/
def decDigit (c : Char) : Option Nat :=
  if 48 ≤ c.toNat ∧ c.toNat ≤ 57 then some (c.toNat - 48) else none

/-- The value of a hexadecimal digit, in either case. -/
def hexDigit (c : Char) : Option Nat :=
  if 65 ≤ c.toNat ∧ c.toNat ≤ 70 then some (c.toNat - 55)
  else if 97 ≤ c.toNat ∧ c.toNat ≤ 102 then some (c.toNat - 87)
  else decDigit c

/-- The digits at the front of a line, as a number in the given base added to `acc`, and the rest. -/
def digits (base : Nat) (digit : Char → Option Nat) : Nat → List Char → Nat × List Char
  | acc, [] => (acc, [])
  | acc, c :: cs =>
    match digit c with
    | some d => digits base digit (acc * base + d) cs
    | none => (acc, c :: cs)

/-- A number of at least one digit. -/
def number (base : Nat) (digit : Char → Option Nat) : List Char → Option (Nat × List Char)
  | [] => none
  | c :: cs =>
    match digit c with
    | some d => some (digits base digit d cs)
    | none => none

/-- Is it a single quote? -/
def isQuote (c : Char) : Bool := c.toNat == 39

/-- Is it a printable ASCII character? -/
def isPrintable (c : Char) : Bool := decide (32 ≤ c.toNat) && decide (c.toNat ≤ 126)

/-- An operand (R68): a quoted character, a hexadecimal literal with `0x`, or a decimal literal. -/
def operandText : List Char → Option (Nat × List Char)
  | [] => none
  | c :: cs =>
    if isQuote c then
      match cs with
      | d :: q :: rest => if isPrintable d && isQuote q then some (d.toNat, rest) else none
      | _ => none
    else if c == '0' then
      match cs with
      | 'x' :: ds => number 16 hexDigit ds
      | _ => number 10 decDigit (c :: cs)
    else number 10 decDigit (c :: cs)

/-- The line without the spaces at its front. -/
def skipSpaces : List Char → List Char
  | ' ' :: cs => skipSpaces cs
  | cs => cs

/-- Is nothing left but a comment, which runs from a semicolon to the end of the line? (R68) -/
def atEnd : List Char → Bool
  | [] => true
  | c :: _ => c == ';'

/-- What a line says (R68). -/
inductive Line where
  | blank
  | command (c : Source)
  | malformed
  deriving DecidableEq, Repr

/-- Reads one line (R68): a mnemonic, perhaps an operand, perhaps a comment. -/
def readLine (line : List Char) : Line :=
  let cs := skipSpaces line
  if atEnd cs then .blank
  else
    let name := cs.takeWhile fun c => c != ' ' && c != ';'
    let rest := skipSpaces (cs.dropWhile fun c => c != ' ' && c != ';')
    match mnemonics.find? fun m => spelling m == name with
    | none => .malformed
    | some m =>
      if atEnd rest then .command ⟨m, none⟩
      else
        match operandText rest with
        | none => .malformed
        | some (v, rest') =>
          if atEnd (skipSpaces rest') then .command ⟨m, some v⟩ else .malformed

/-- A line to its command word: none for a blank or a malformed line, or an operand that does not
fit (R68). -/
def assembleLine (line : List Char) : Option Word :=
  match readLine line with
  | .command c => (assemble c).map encode
  | .blank | .malformed => none

/-- `CRC.BYTES` (R69). -/
def macroCrcBytes (bs : List Byte) : List Instr := bs.map .crcUpd

/-- `ADL.BYTES` (R69). -/
def macroAdlBytes (bs : List Byte) : List Instr := bs.map .adlUpd

/-- `FRM.BYTES` (R69). -/
def macroFrmBytes (bs : List Byte) : List Instr := bs.map .frmData

/-- `CRC32` (R69). -/
def macroCrc32 (bs : List Byte) : List Instr := .crcInit :: macroCrcBytes bs ++ [.crcFin]

/-- `ADLER32` (R69). -/
def macroAdler32 (bs : List Byte) : List Instr := .adlInit :: macroAdlBytes bs ++ [.adlFin]

/-- `ZSTORE` (R69), for at most 65535 bytes. -/
def macroZstore (bs : List Byte) : Option (List Instr) :=
  if bs.length ≤ lenMax then
    some (.frmBegin (BitVec.ofNat 16 bs.length) :: macroFrmBytes bs)
  else none

/-- A string of printable ASCII characters standing for its bytes in order (R69). -/
def macroString (cs : List Char) : Option (List Byte) :=
  if cs.all isPrintable then some (cs.map fun c => BitVec.ofNat 8 c.toNat) else none

end Sys2Proof.Machine
end

