-- ==== Sys2Proof/Machine/HostProcedures.lean ====
section
/-!
DEFINITION. What a well-behaved host does with the block (spec 44_container_host_procedure R151 to
R159): the commands that HP.CRC32, HP.ADLER32 and HP.ZSTORE issue, and the byte sequences that
HP.CHUNK and HP.IMAGE return. This is host software, not the block (00_scope R2, R150); no
meaning uses it.
-/

namespace Sys2Proof.Machine

/-- The commands of `HP.CRC32(s)` (R151). -/
def hpCrc32 (s : List Byte) : List Instr := macroCrc32 s

/-- The commands of `HP.ADLER32(s)` (R152). -/
def hpAdler32 (s : List Byte) : List Instr := macroAdler32 s

/-- The commands of `HP.ZSTORE(s)` (R153), for `len(s) <= 65535`: the frame, then `n + 11` pops. -/
def hpZstore (s : List Byte) : List Instr :=
  .frmBegin (BitVec.ofNat 16 s.length) :: macroFrmBytes s
    ++ List.replicate (s.length + wrapOverhead) .outPop

/-- The bytes a host keeps of the responses of its pops: those with bit 8 set (R153, R207). -/
def poppedBytes (rs : List Word) : List Byte :=
  (rs.filter fun r => r.getLsbD 8).map lowByte

/-- `HP.CHUNK(t, p)` (R154). -/
def hpChunk (tag payload : List Byte) : List Byte :=
  be32 (BitVec.ofNat 32 payload.length) ++ tag ++ payload ++ be32 (crc32 (tag ++ payload))

/-- The eight bytes of the signature (R155). -/
def hpSignature : List Byte := [0x89, 0x50, 0x4E, 0x47, 0x0D, 0x0A, 0x1A, 0x0A]

/-- PRESUMED, by the spec itself (R156, 93 G1; log entry 10): the header chunk's tag. -/
def tagHeader : List Byte := [0x49, 0x48, 0x44, 0x52]

/-- PRESUMED, by the spec itself (R157, 93 G1; log entry 10): the data chunk's tag. -/
def tagData : List Byte := [0x49, 0x44, 0x41, 0x54]

/-- PRESUMED, by the spec itself (R158, 93 G1; log entry 10): the terminator chunk's tag. -/
def tagEnd : List Byte := [0x49, 0x45, 0x4E, 0x44]

/-- The header chunk's payload (R156): width 1, height 1, depth 8, colour type 6, then zeros. -/
def hpHeaderPayload : List Byte :=
  [0x00, 0x00, 0x00, 0x01, 0x00, 0x00, 0x00, 0x01, 0x08, 0x06, 0x00, 0x00, 0x00]

/-- The data chunk's payload (R157): the frame of a filter byte 0 and the four channels. -/
def hpDataPayload (r g b a : Byte) : List Byte := zstore [0x00, r, g, b, a]

/-- `HP.IMAGE(R, G, B, A)` (R159). -/
def hpImage (r g b a : Byte) : List Byte :=
  hpSignature ++ hpChunk tagHeader hpHeaderPayload ++ hpChunk tagData (hpDataPayload r g b a)
    ++ hpChunk tagEnd []

/-- The commands `HP.IMAGE` issues (R162): three `HP.CRC32` and one `HP.ZSTORE`. -/
def hpImageCommands (r g b a : Byte) : List Instr :=
  hpCrc32 (tagHeader ++ hpHeaderPayload) ++ hpZstore [0x00, r, g, b, a]
    ++ hpCrc32 (tagData ++ hpDataPayload r g b a) ++ hpCrc32 tagEnd

end Sys2Proof.Machine
end

