-- ==== Sys2Proof/Safety.lean ====
section
/-!
DEFINITION. The terms in which claims are stated: the invariants of spec 10_state R30, what a clean
run is (70_reset R207), running a list of commands, and what of a state can be observed (R22, R188).
-/

namespace Sys2Proof.Machine

/-- Every piece of the block's state has the value that R34 gives it after reset. Of `T` the rule says
nothing but that it is unspecified, so nothing is said of it here. -/
abbrev State.AtReset (s : State) : Prop :=
  s.tv = false ∧ s.crc = 0xFFFFFFFF ∧ s.a = 1 ∧ s.b = 0 ∧ s.fa = 1 ∧ s.fb = 0 ∧ s.rem = 0 ∧
  s.out = [] ∧ s.flt = false ∧ s.fcode = 0 ∧ s.finfo = 0

/-- The command port is as it was: the parameter, the events to come, the responses so far. -/
abbrev State.SamePort (s u : State) : Prop :=
  u.outDepth = s.outDepth ∧ u.pending = s.pending ∧ u.responses = s.responses

/-- R30 (a): all four sums are reduced. -/
abbrev State.SumsReduced (s : State) : Prop :=
  s.a.toNat < 65521 ∧ s.b.toNat < 65521 ∧ s.fa.toNat < 65521 ∧ s.fb.toNat < 65521

/-- R30 (b): the queue is within its capacity. -/
abbrev State.QueueBounded (s : State) : Prop := s.out.length ≤ s.outDepth

/-- R30 (c): the fault record is empty, or holds one of the four codes. -/
abbrev State.RecordLegal (s : State) : Prop :=
  (s.flt = false → s.fcode = 0 ∧ s.finfo = 0) ∧
  (s.flt = true → 1 ≤ s.fcode.toNat ∧ s.fcode.toNat ≤ 4)

/-- R30 (d): a valid table is the table of R81. -/
abbrev State.TableValid (s : State) : Prop := s.tv = true → s.t = crcTable

/-- The parameter is an admissible one (R4). -/
abbrev State.DepthLegal (s : State) : Prop :=
  Config.outDepthMin ≤ s.outDepth ∧ s.outDepth ≤ Config.outDepthMax

/-- The invariant of R30 (a) to (d), with the range of the parameter. -/
abbrev State.Inv (s : State) : Prop :=
  s.SumsReduced ∧ s.QueueBounded ∧ s.RecordLegal ∧ s.TableValid ∧ s.DepthLegal

/-- A run is clean at its end (R207). -/
abbrev State.Clean (s : State) : Prop := s.flt = false ∧ s.rem = 0

/-- A run is clean and has delivered all its output (R207). -/
abbrev State.Delivered (s : State) : Prop := s.Clean ∧ s.out = []

/-- The next state an outcome gives, changed by `f`; a fault or a refusal stays. -/
def mapNext (f : State → State) : Result → Result
  | .next s => .next (f s)
  | .fault r => .fault r
  | .refused r => .refused r

/-- The outcome of going on from an outcome. -/
def andThen (r : Result) (k : State → Result) : Result :=
  match r with
  | .next s => k s
  | .fault e => .fault e
  | .refused e => .refused e

/-- A sequence of commands executed in order, with nothing between them (R50). -/
def runCommands : List Instr → State → Result
  | [], s => .next s
  | i :: is, s => andThen (exec i s) (runCommands is)

/-- The host events that issue the commands `is` in order. -/
def asEvents (is : List Instr) : List HostEvent := is.map fun i => .command (encode i)

/-- The operand that a word carries in a format's field, as a number (R62). -/
def operandField : Format → Word → Option Nat
  | .noOperand, _ => none
  | .byteOperand, w => some (w.toNat % 256)
  | .halfOperand, w => some (w.toNat % 65536)

/-- The payload bytes that a sequence of commands supplies, in order. -/
def payloadOf : List Instr → List Byte
  | [] => []
  | .frmData x :: is => x :: payloadOf is
  | _ :: is => payloadOf is

/-- The bytes that a sequence of commands feeds to the CRC unit, in order. -/
def crcBytesOf : List Instr → List Byte
  | [] => []
  | .crcUpd b :: is => b :: crcBytesOf is
  | _ :: is => crcBytesOf is

/-- The bytes that a sequence of commands feeds to the Adler unit, in order. -/
def adlBytesOf : List Instr → List Byte
  | [] => []
  | .adlUpd x :: is => x :: adlBytesOf is
  | _ :: is => adlBytesOf is

end Sys2Proof.Machine

namespace Sys2Proof

/-- The commands of the CRC unit (R80 to R93). -/
def Instr.ofCrcUnit : Instr → Bool
  | .crcTinit | .crcInit | .crcUpd _ | .crcFin | .crcRdt _ => true
  | .sysNop | .sysRst | .sysStat | .sysFinfo | .adlInit | .adlUpd _ | .adlFin => false
  | .frmBegin _ | .frmData _ | .outPop | .outCnt => false

/-- The commands of the Adler unit (R103 to R105). -/
def Instr.ofAdlerUnit : Instr → Bool
  | .adlInit | .adlUpd _ | .adlFin => true
  | .sysNop | .sysRst | .sysStat | .sysFinfo => false
  | .crcTinit | .crcInit | .crcUpd _ | .crcFin | .crcRdt _ => false
  | .frmBegin _ | .frmData _ | .outPop | .outCnt => false

/-- The commands of the framer (R122, R123). -/
def Instr.ofFramer : Instr → Bool
  | .frmBegin _ | .frmData _ => true
  | .sysNop | .sysRst | .sysStat | .sysFinfo | .adlInit | .adlUpd _ | .adlFin => false
  | .crcTinit | .crcInit | .crcUpd _ | .crcFin | .crcRdt _ | .outPop | .outCnt => false

/-- The two commands of the output queue (R139, R140). -/
def Instr.ofQueue : Instr → Bool
  | .outPop | .outCnt => true
  | .sysNop | .sysRst | .sysStat | .sysFinfo | .adlInit | .adlUpd _ | .adlFin => false
  | .crcTinit | .crcInit | .crcUpd _ | .crcFin | .crcRdt _ | .frmBegin _ | .frmData _ => false

/-- The seven commands of the responding kind (R70). -/
def Instr.responds : Instr → Bool
  | .sysStat | .sysFinfo | .crcFin | .crcRdt _ | .adlFin | .outPop | .outCnt => true
  | .sysNop | .sysRst | .crcTinit | .crcInit | .crcUpd _ | .adlInit | .adlUpd _ => false
  | .frmBegin _ | .frmData _ => false

/-- The three commands that a faulted block still executes (R178). -/
def Instr.runsFaulted : Instr → Bool
  | .sysRst | .sysStat | .sysFinfo => true
  | .sysNop | .crcTinit | .crcInit | .crcUpd _ | .crcFin | .crcRdt _ => false
  | .adlInit | .adlUpd _ | .adlFin | .frmBegin _ | .frmData _ | .outPop | .outCnt => false

/-- The commands that may stand between `FRM.BEGIN` and the end of a frame without changing what is
appended (R124), with `FRM.DATA` itself: all but the two that open or discard a frame. -/
def Instr.keepsFrame : Instr → Bool
  | .sysRst | .frmBegin _ => false
  | .sysNop | .sysStat | .sysFinfo | .crcTinit | .crcInit | .crcUpd _ | .crcFin | .crcRdt _ => true
  | .adlInit | .adlUpd _ | .adlFin | .frmData _ | .outPop | .outCnt => true

end Sys2Proof

namespace Sys2Proof.Machine

/-- What can be told of a state: all of it but the contents of a table that is not valid (R22) and
the model's own count of free tables. -/
def State.observable (s : State) : State :=
  { s with t := if s.tv then s.t else crcTable, freeIx := 0 }

end Sys2Proof.Machine
end

