-- ==== Sys2Proof/Certificates/Slice0/Obligations.lean ====
section
/-!
DEFINITION. The statements for the provers. Each is about every state, also states that no run
reaches; where it could fail only in such states, the part of `State.Inv` it needs is a premise,
and `StepKeepsInvariant` and `ResetMeetsInvariant` say that no run leaves the invariant.
-/

open Sys2Proof Sys2Proof.Machine Host

/-! ## The command port and the step -/

/-- 00_scope section 7 (R9): when the next word decodes to a command, the step is `exec` of it on the
state with the word taken from the host's pending events. -/
def Obligations.StepRunsDecodedCommand : Prop :=
  ∀ (s : State) (w : Word) (rest : List HostEvent) (i : Instr),
    s.pending = .command w :: rest → decode w = .command i → i.wellFormed = true →
    step s = exec i { s with pending := rest }

/-- R9: the whole step on one command word, and reset as the second function. -/
def Obligations.StepFollowsTheOneFunction : Prop :=
  (∀ (s : State) (w : Word) (rest : List HostEvent), s.pending = .command w :: rest →
    step s =
      if s.flt = true then
        match decode w with
        | .command .sysRst => exec .sysRst { s with pending := rest }
        | .command .sysStat => exec .sysStat { s with pending := rest }
        | .command .sysFinfo => exec .sysFinfo { s with pending := rest }
        | _ => .next { s with pending := rest }
      else
        match decode w with
        | .illegal _ => .next { s with pending := rest, flt := true, fcode := 1, finfo := w }
        | .command i => exec i { s with pending := rest }) ∧
  (∀ (s : State) (rest : List HostEvent), s.pending = .reset :: rest →
    ∃ t, step s = .next t ∧ t.AtReset ∧ State.SamePort { s with pending := rest } t)

/-- 60_exceptions section 7 (R189), with the model's convention of log entry 3: with no event of
the host pending, the block is idle with its state held. -/
def Obligations.IdleBlockHoldsItsState : Prop :=
  ∀ s : State, s.pending = [] → step s = .next s

/-- 60_exceptions section 7 (R191), 20_memory section 4 (R47): every step completes; no command, word
or event ends in a fault of the model or a refusal. -/
def Obligations.EveryStepCompletes : Prop :=
  (∀ s : State, ∃ t, step s = .next t) ∧ (∀ (i : Instr) (s : State), ∃ t, exec i s = .next t)

/-- R195: the two reset events have the same effect, each leaves every piece of state at its reset
value and has no other effect, and the initial state is a state after reset. -/
def Obligations.BothResetsAreTheSame : Prop :=
  (∀ (s : State) (rest : List HostEvent), s.pending = .reset :: rest →
    step s = exec .sysRst { s with pending := rest } ∧
    ∃ t, step s = .next t ∧ t.AtReset ∧ State.SamePort { s with pending := rest } t) ∧
  State.reset.AtReset

/-- R34: the values after reset, of the initial state and after either reset event, and the status
they give. -/
def Obligations.ResetValuesAndStatus : Prop :=
  State.reset.AtReset ∧
  (∀ s : State, ∃ t, exec .sysRst s = .next t ∧ t.AtReset) ∧
  (∀ (s : State) (rest : List HostEvent), s.pending = .reset :: rest →
    ∃ t, step s = .next t ∧ t.AtReset) ∧
  (∀ s : State, s.AtReset → s.status = 0x00000000)

/-! ## Decoding and encoding -/

/-- R64: `decode` returns the command of the one row that the word matches, with its operand taken
by R62, and `ILLEGAL` when no row matches; no word matches two rows. -/
def Obligations.DecodeFollowsTheOpcodeTable : Prop :=
  (∀ (w : Word) (i : Instr), decode w = .command i ↔
    (w &&& rowMask i.mnemonic = rowMatch i.mnemonic ∧
      i.operand = operandField (formatOf i.mnemonic) w)) ∧
  (∀ w : Word, (∃ r, decode w = .illegal r) ↔ ∀ m : Mnemonic, w &&& rowMask m ≠ rowMatch m) ∧
  (∀ (w : Word) (m m' : Mnemonic),
    w &&& rowMask m = rowMatch m → w &&& rowMask m' = rowMatch m' → m = m')

/-- R65: the two cases of an illegal word, by the number the word is, and what an illegal word does
when received while not faulted and while faulted. -/
def Obligations.IllegalInExactlyTwoCases : Prop :=
  (∀ w : Word, decode w = .illegal .unassignedOpcode ↔
    w.toNat / 16777216 ∉ [0x01, 0x02, 0x03, 0x04, 0x10, 0x11, 0x12, 0x13, 0x14,
      0x20, 0x21, 0x22, 0x30, 0x31, 0x38, 0x39]) ∧
  (∀ w : Word, decode w = .illegal .reservedBits ↔
    (w.toNat / 16777216 ∈ [0x01, 0x02, 0x03, 0x04, 0x10, 0x11, 0x13, 0x20, 0x22, 0x38, 0x39] ∧
      w.toNat % 16777216 ≠ 0) ∨
    (w.toNat / 16777216 ∈ [0x12, 0x14, 0x21, 0x31] ∧ w.toNat / 256 % 65536 ≠ 0) ∨
    (w.toNat / 16777216 = 0x30 ∧ w.toNat / 65536 % 256 ≠ 0)) ∧
  (∀ (s : State) (w : Word) (rest : List HostEvent) (r : Illegal),
    s.pending = .command w :: rest → decode w = .illegal r →
    (s.flt = false →
      step s = .next { s with pending := rest, flt := true, fcode := 1, finfo := w }) ∧
    (s.flt = true → step s = .next { s with pending := rest }))

/-- 30_encoding sections 1 and 2 (R61 to R64): decoding the word of a well-formed command gives the
command back, whatever its operand. -/
def Obligations.EncodeThenDecode : Prop :=
  ∀ i : Instr, i.wellFormed = true → decode (encode i) = .command i

/-- 30_encoding section 2 (R64): a legal word is the one word of its command; decoding drops no
bit. -/
def Obligations.DecodeThenEncode : Prop :=
  ∀ (w : Word) (i : Instr), decode w = .command i → encode i = w

/-- 30_encoding section 3 (R66): the legal words are 66571 in number. -/
def Obligations.LegalWordsCounted : Prop :=
  ∃ legal : List Word, legal.Nodup ∧ legal.length = 66571 ∧
    ∀ w : Word, (∃ i, decode w = .command i) ↔ w ∈ legal

/-- 30_encoding section 2 (R63) and 95_test_vectors section 5: a word of each family, written out, is
the command it stands for, and a few words are none. -/
def Obligations.WrittenOutWordsDecode : Prop :=
  decode 0x03000000 = .command .sysStat ∧
  decode 0x12000049 = .command (.crcUpd 0x49) ∧
  decode 0x14000080 = .command (.crcRdt 0x80) ∧
  decode 0x210000FF = .command (.adlUpd 0xFF) ∧
  decode 0x3000FFFF = .command (.frmBegin 0xFFFF) ∧
  decode 0x31000041 = .command (.frmData 0x41) ∧
  decode 0x38000000 = .command .outPop ∧
  decode 0x00000000 = .illegal .unassignedOpcode ∧
  decode 0xFFFFFFFF = .illegal .unassignedOpcode ∧
  decode 0x12000100 = .illegal .reservedBits ∧
  decode 0x11000001 = .illegal .reservedBits ∧
  decode 0x30010000 = .illegal .reservedBits

/-- 30_encoding section 5 (R68): a written command assembles exactly when its operand fits its
field, and then to the command of its name with that operand. -/
def Obligations.AssemblesExactlyWhatFits : Prop :=
  ∀ (c : Source) (i : Instr), assemble c = some i ↔
    c.wellFormed = true ∧ i.mnemonic = c.mnemonic ∧ i.operand = c.operand

/-! ## The sixteen commands. Each conclusion gives the whole next state, so it is the frame too -/

/-- R135. -/
def Obligations.SysNopDoesNothing : Prop :=
  decode 0x01000000 = .command .sysNop ∧
  (∀ s : State, exec .sysNop s = .next s) ∧
  decode 0x00000000 = .illegal .unassignedOpcode

/-- R136; of the sixteen commands it alone clears a fault. -/
def Obligations.SysRstResetsEverything : Prop :=
  decode 0x02000000 = .command .sysRst ∧
  (∀ s : State, ∃ t, exec .sysRst s = .next t ∧ t.AtReset ∧ State.SamePort s t ∧
    t.status = 0x00000000) ∧
  decode 0x02000001 = .illegal .reservedBits ∧
  (∀ (s : State) (rest : List HostEvent), s.pending = .command 0x02000001 :: rest →
    s.flt = true → step s = .next { s with pending := rest }) ∧
  (∀ (s : State) (rest : List HostEvent), s.pending = .reset :: rest →
    step s = exec .sysRst { s with pending := rest }) ∧
  (∀ (i : Instr) (s t : State), s.flt = true → exec i s = .next t → t.flt = false → i = .sysRst)

/-- R137: the response, field by field as R29 lays them out; nothing is written, faulted or not. -/
def Obligations.SysStatReadsTheStatus : Prop :=
  decode 0x03000000 = .command .sysStat ∧
  ∀ s : State, ∃ r : Word,
    exec .sysStat s = .next { s with responses := s.responses ++ [r] } ∧
    r.extractLsb' 16 16 = s.rem ∧ r.extractLsb' 8 8 = 0 ∧ r.extractLsb' 4 4 = s.fcode ∧
    r.getLsbD 3 = decide (s.out ≠ []) ∧ r.getLsbD 2 = s.flt ∧
    r.getLsbD 1 = decide (s.rem ≠ 0) ∧ r.getLsbD 0 = s.tv

/-- R138: faulted or not; 0 when no fault is latched and the record is legal (R30 (c)); the all-zero
word, when it faults, is recorded as 0 with FLT set. -/
def Obligations.SysFinfoReadsTheFaultingWord : Prop :=
  decode 0x04000000 = .command .sysFinfo ∧
  (∀ s : State, exec .sysFinfo s = .next { s with responses := s.responses ++ [s.finfo] }) ∧
  (∀ s : State, s.RecordLegal → s.flt = false →
    exec .sysFinfo s = .next { s with responses := s.responses ++ [0] }) ∧
  (∀ (s : State) (rest : List HostEvent), s.pending = .command 0x00000000 :: rest → s.flt = false →
    step s = .next { s with pending := rest, flt := true, fcode := 1, finfo := 0 })

/-- R85: the table is built at once, every entry by R81; with a valid table already there nothing
changes; dropped while faulted. -/
def Obligations.CrcTinitBuildsTheTable : Prop :=
  decode 0x10000000 = .command .crcTinit ∧
  (∀ s : State, s.flt = false → ∃ t : Table, (∀ i : Byte, tableEntry t i = tbl i) ∧
    exec .crcTinit s = .next { s with t := t, tv := true }) ∧
  (∀ s : State, s.TableValid → s.tv = true → exec .crcTinit s = .next s) ∧
  (∀ s : State, s.flt = true → exec .crcTinit s = .next s)

/-- R86. -/
def Obligations.CrcInitStartsAChecksum : Prop :=
  decode 0x11000000 = .command .crcInit ∧
  (∀ s : State, s.flt = false → exec .crcInit s = .next { s with crc := 0xFFFFFFFF }) ∧
  (∀ s : State, s.flt = true → exec .crcInit s = .next s)

/-- R87: over a valid table (R30 (d)) or none, the register moves by the rule of R82 and the table is
there afterwards. -/
def Obligations.CrcUpdFeedsOneByte : Prop :=
  (∀ b : Byte, decode (0x12000000 ||| b.setWidth 32) = .command (.crcUpd b)) ∧
  (∀ (s : State) (b : Byte), s.TableValid → s.flt = false →
    exec (.crcUpd b) s = .next { s with
      crc := tbl (((s.crc ^^^ b.setWidth 32) &&& 0xFF).setWidth 8) ^^^ (s.crc >>> 8)
      t := crcTable
      tv := true }) ∧
  (∀ (s : State) (b : Byte), s.flt = true → exec (.crcUpd b) s = .next s)

/-- R88. -/
def Obligations.CrcFinReadsTheChecksum : Prop :=
  decode 0x13000000 = .command .crcFin ∧
  (∀ s : State, s.flt = false →
    exec .crcFin s = .next { s with responses := s.responses ++ [s.crc ^^^ 0xFFFFFFFF] }) ∧
  (∀ s : State, s.flt = true → exec .crcFin s = .next s)

/-- R89: over a valid table (R30 (d)) or none, the response is `tbl(i)` and the table is there
afterwards. -/
def Obligations.CrcRdtReadsATableEntry : Prop :=
  (∀ i : Byte, decode (0x14000000 ||| i.setWidth 32) = .command (.crcRdt i)) ∧
  (∀ (s : State) (i : Byte), s.TableValid → s.flt = false →
    exec (.crcRdt i) s = .next { s with
      t := crcTable
      tv := true
      responses := s.responses ++ [tbl i] }) ∧
  (∀ (s : State) (i : Byte), s.flt = true → exec (.crcRdt i) s = .next s)

/-- R103. -/
def Obligations.AdlInitStartsAChecksum : Prop :=
  decode 0x20000000 = .command .adlInit ∧
  (∀ s : State, s.flt = false → exec .adlInit s = .next { s with a := 1, b := 0 }) ∧
  (∀ s : State, s.flt = true → exec .adlInit s = .next s)

/-- R104: the sums in the integers. -/
def Obligations.AdlUpdFeedsOneByte : Prop :=
  (∀ x : Byte, decode (0x21000000 ||| x.setWidth 32) = .command (.adlUpd x)) ∧
  (∀ (s : State) (x : Byte), s.flt = false → ∃ a' b' : Half,
    exec (.adlUpd x) s = .next { s with a := a', b := b' } ∧
    a'.toNat = (s.a.toNat + x.toNat) % 65521 ∧
    b'.toNat = (s.b.toNat + a'.toNat) % 65521) ∧
  (∀ (s : State) (x : Byte), s.flt = true → exec (.adlUpd x) s = .next s)

/-- R105: the response is `B * 65536 + A`, which is `(B << 16) | A` (R106). -/
def Obligations.AdlFinReadsTheChecksum : Prop :=
  decode 0x22000000 = .command .adlFin ∧
  (∀ s : State, s.flt = false → ∃ r : Word,
    exec .adlFin s = .next { s with responses := s.responses ++ [r] } ∧
    r.toNat = s.b.toNat * 65536 + s.a.toNat) ∧
  (∀ s : State, s.flt = true → exec .adlFin s = .next s)

/-- R122: the two faults in their order, and the frame opened; the bytes as numbers. -/
def Obligations.FrmBeginOpensAFrame : Prop :=
  (∀ n : Half, decode (0x30000000 ||| n.setWidth 32) = .command (.frmBegin n)) ∧
  (∀ (s : State) (n : Half), s.flt = false →
    exec (.frmBegin n) s =
      if s.rem ≠ 0 then
        .next { s with flt := true, fcode := 2, finfo := 0x30000000 ||| n.setWidth 32 }
      else if s.outDepth - s.out.length < (if n = 0 then 11 else 7) then
        .next { s with flt := true, fcode := 4, finfo := 0x30000000 ||| n.setWidth 32 }
      else
        .next { s with
          out := s.out ++
            ([0x78, 0x01, 0x01, n.toNat % 256, n.toNat / 256, 255 - n.toNat % 256,
                255 - n.toNat / 256].map (BitVec.ofNat 8)) ++
            (if n = 0 then [0x00, 0x00, 0x00, 0x01] else [])
          fa := 1
          fb := 0
          rem := n }) ∧
  (∀ (s : State) (n : Half), s.flt = true → exec (.frmBegin n) s = .next s)

/-- R123: the two faults in their order, and the byte accepted, with the trailer, most significant
byte first, when it was the last. -/
def Obligations.FrmDataSuppliesAByte : Prop :=
  (∀ x : Byte, decode (0x31000000 ||| x.setWidth 32) = .command (.frmData x)) ∧
  (∀ (s : State) (x : Byte), s.flt = false → s.rem = 0 →
    exec (.frmData x) s =
      .next { s with flt := true, fcode := 3, finfo := 0x31000000 ||| x.setWidth 32 }) ∧
  (∀ (s : State) (x : Byte), s.flt = false → s.rem ≠ 0 →
    s.outDepth - s.out.length < (if s.rem = 1 then 5 else 1) →
    exec (.frmData x) s =
      .next { s with flt := true, fcode := 4, finfo := 0x31000000 ||| x.setWidth 32 }) ∧
  (∀ (s : State) (x : Byte), s.flt = false → s.rem ≠ 0 →
    (if s.rem = 1 then 5 else 1) ≤ s.outDepth - s.out.length →
    ∃ fa' fb' rem' : Half, ∃ pushed : List Byte,
      exec (.frmData x) s = .next { s with
        out := s.out ++ x :: pushed
        fa := fa'
        fb := fb'
        rem := rem' } ∧
      fa'.toNat = (s.fa.toNat + x.toNat) % 65521 ∧
      fb'.toNat = (s.fb.toNat + fa'.toNat) % 65521 ∧
      rem'.toNat = s.rem.toNat - 1 ∧
      pushed = if s.rem = 1 then
          [fb'.toNat / 256, fb'.toNat % 256, fa'.toNat / 256, fa'.toNat % 256].map
            (BitVec.ofNat 8)
        else []) ∧
  (∀ (s : State) (x : Byte), s.flt = true → exec (.frmData x) s = .next s)

/-- R139: a byte with bit 8 set, or 0 when there is none. -/
def Obligations.OutPopTakesTheHead : Prop :=
  decode 0x38000000 = .command .outPop ∧
  (∀ (s : State) (x : Byte) (rest : List Byte), s.flt = false → s.out = x :: rest → ∃ r : Word,
    exec .outPop s = .next { s with out := rest, responses := s.responses ++ [r] } ∧
    r.toNat = 256 + x.toNat) ∧
  (∀ s : State, s.flt = false → s.out = [] →
    exec .outPop s = .next { s with responses := s.responses ++ [0x00000000] }) ∧
  (∀ s : State, s.flt = true → exec .outPop s = .next s)

/-- R140: the count, which fits a response while the queue is within an admissible depth
(R30 (b), R4). -/
def Obligations.OutCntCountsTheQueue : Prop :=
  decode 0x39000000 = .command .outCnt ∧
  (∀ s : State, s.QueueBounded → s.DepthLegal → s.flt = false → ∃ r : Word,
    exec .outCnt s = .next { s with responses := s.responses ++ [r] } ∧
    r.toNat = s.out.length) ∧
  (∀ s : State, s.flt = true → exec .outCnt s = .next s)

/-! ## Faults -/

/-- R171: which word raises which code, that the word is what is recorded, and that the code is 0
when no fault is latched (over a record that is legal before, R30 (c)). The order of the tests is
that of R176. -/
def Obligations.FaultCodesHaveTheirCauses : Prop :=
  ∀ (s : State) (w : Word) (rest : List HostEvent) (t : State),
    s.pending = .command w :: rest → s.flt = false → step s = .next t →
    (t.flt = true ∧ t.fcode = 1 ∧ t.finfo = w ↔ ∃ r, decode w = .illegal r) ∧
    (t.flt = true ∧ t.fcode = 2 ∧ t.finfo = w ↔
      ∃ n, decode w = .command (.frmBegin n) ∧ s.rem ≠ 0) ∧
    (t.flt = true ∧ t.fcode = 3 ∧ t.finfo = w ↔
      ∃ x, decode w = .command (.frmData x) ∧ s.rem = 0) ∧
    (t.flt = true ∧ t.fcode = 4 ∧ t.finfo = w ↔
      (∃ n, decode w = .command (.frmBegin n) ∧ s.rem = 0 ∧
        s.outDepth - s.out.length < (if n = 0 then 11 else 7)) ∨
      (∃ x, decode w = .command (.frmData x) ∧ s.rem ≠ 0 ∧
        s.outDepth - s.out.length < (if s.rem = 1 then 5 else 1))) ∧
    (t.flt = true → t.finfo = w ∧ (t.fcode = 1 ∨ t.fcode = 2 ∨ t.fcode = 3 ∨ t.fcode = 4)) ∧
    (s.RecordLegal → t.flt = false → t.fcode = 0 ∧ t.finfo = 0)

/-- R181: a faulting command leaves the state before it with the fault record set, and nothing
else. -/
def Obligations.FaultsArePrecise : Prop :=
  ∀ (s : State) (w : Word) (rest : List HostEvent) (t : State),
    s.pending = .command w :: rest → s.flt = false → step s = .next t → t.flt = true →
    ∃ code : BitVec 4,
      t = { s with pending := rest, flt := true, fcode := code, finfo := w }

/-- R178: while faulted only three words execute; every other word, legal or illegal, is dropped. -/
def Obligations.FaultedBlockDropsAllButThree : Prop :=
  ∀ (s : State) (w : Word) (rest : List HostEvent),
    s.pending = .command w :: rest → s.flt = true →
    (w = 0x02000000 → ∃ t, step s = .next t ∧ t.AtReset) ∧
    (w = 0x03000000 → step s =
      .next { s with pending := rest, responses := s.responses ++ [s.status] }) ∧
    (w = 0x04000000 → step s =
      .next { s with pending := rest, responses := s.responses ++ [s.finfo] }) ∧
    (w ≠ 0x02000000 → w ≠ 0x03000000 → w ≠ 0x04000000 →
      step s = .next { s with pending := rest })

/-- 60_exceptions section 5 (R179, R180): the only way out of the faulted state is a reset, and until
then the record of the first fault stands. -/
def Obligations.OnlyResetEndsAFault : Prop :=
  ∀ s t : State, s.flt = true → step s = .next t →
    (t.flt = true ∧ t.fcode = s.fcode ∧ t.finfo = s.finfo) ∨
    (t.AtReset ∧ ∃ rest,
      s.pending = .reset :: rest ∨ s.pending = .command 0x02000000 :: rest)

/-- R70: a command of the responding kind that executes returns exactly one response, another kind
none; an illegal word and a dropped command return none. -/
def Obligations.ResponsesAreOneOrNone : Prop :=
  (∀ i : Instr, i.responds = true ↔
    (i = .sysStat ∨ i = .sysFinfo ∨ i = .crcFin ∨ (∃ k, i = .crcRdt k) ∨ i = .adlFin ∨
      i = .outPop ∨ i = .outCnt)) ∧
  (∀ (i : Instr) (s : State), ∃ t, exec i s = .next t ∧
    if i.responds = true ∧ (s.flt = false ∨ i.runsFaulted = true) then
      ∃ r, t.responses = s.responses ++ [r]
    else t.responses = s.responses) ∧
  (∀ (s : State) (w : Word) (rest : List HostEvent) (r : Illegal),
    s.pending = .command w :: rest → decode w = .illegal r →
    ∃ t, step s = .next t ∧ t.responses = s.responses)

/-! ## Units, queue, order -/

/-- 41_adler32 section 2 (R109): outside the Adler unit no unit's command reads or writes A or B, and
an Adler command reads A, B and FLT alone and writes A, B and a response alone. -/
def Obligations.AdlerUnitStandsAlone : Prop :=
  (∀ (i : Instr) (s : State) (a b : Half),
    i.ofCrcUnit = true ∨ i.ofFramer = true ∨ i.ofQueue = true →
    exec i { s with a := a, b := b } = mapNext (fun t => { t with a := a, b := b }) (exec i s)) ∧
  (∀ (i : Instr) (flt : Bool) (a b : Half), i.ofAdlerUnit = true →
    ∃ (a' b' : Half) (rs : List Word), ∀ s : State, s.flt = flt → s.a = a → s.b = b →
      exec i s = .next { s with a := a', b := b', responses := s.responses ++ rs })

/-- 40_crc32 section 2 (R93): outside the CRC unit no unit's command reads or writes CRC, T or TV, and
a CRC command reads those and FLT alone and writes those and a response alone. -/
def Obligations.CrcUnitStandsAlone : Prop :=
  (∀ (i : Instr) (s : State) (tab : Table) (tv : Bool) (crc : Word),
    i.ofAdlerUnit = true ∨ i.ofFramer = true ∨ i.ofQueue = true →
    exec i { s with t := tab, tv := tv, crc := crc } =
      mapNext (fun u => { u with t := tab, tv := tv, crc := crc }) (exec i s)) ∧
  (∀ (i : Instr) (flt : Bool) (tab : Table) (tv : Bool) (crc : Word), i.ofCrcUnit = true →
    ∃ (tab' : Table) (tv' : Bool) (crc' : Word) (rs : List Word), ∀ s : State,
      s.flt = flt → s.t = tab → s.tv = tv → s.crc = crc →
      exec i s = .next { s with
        t := tab', tv := tv', crc := crc', responses := s.responses ++ rs })

/-- 42_stored_framer section 2 (R125) and 10_state section 4 (R25): no CRC or Adler command reads or
writes FA, FB, REM or OUT, no queue command reads or writes FA, FB or REM, and a framer command
reads FLT, FA, FB, REM and the free room of OUT alone: these settle whether it faults or not, what a
fault records, and otherwise the new FA, FB and REM and the bytes at the tail of OUT, all else
unchanged (a command dropped while faulted adds no bytes and keeps the three). -/
def Obligations.FramerStandsAlone : Prop :=
  (∀ (i : Instr) (s : State) (fa fb rem : Half) (out : List Byte),
    i.ofCrcUnit = true ∨ i.ofAdlerUnit = true →
    exec i { s with fa := fa, fb := fb, rem := rem, out := out } =
      mapNext (fun u => { u with fa := fa, fb := fb, rem := rem, out := out }) (exec i s)) ∧
  (∀ (i : Instr) (s : State) (fa fb rem : Half), i.ofQueue = true →
    exec i { s with fa := fa, fb := fb, rem := rem } =
      mapNext (fun u => { u with fa := fa, fb := fb, rem := rem }) (exec i s)) ∧
  (∀ (i : Instr) (flt : Bool) (fa fb rem : Half) (room : Nat), i.ofFramer = true →
    (∃ (code : BitVec 4) (w : Word), ∀ s : State,
      s.flt = flt → s.fa = fa → s.fb = fb → s.rem = rem → s.outDepth - s.out.length = room →
      exec i s = .next { s with flt := true, fcode := code, finfo := w }) ∨
    (∃ (fa' fb' rem' : Half) (bs : List Byte), ∀ s : State,
      s.flt = flt → s.fa = fa → s.fb = fb → s.rem = rem → s.outDepth - s.out.length = room →
      exec i s = .next { s with fa := fa', fb := fb', rem := rem', out := s.out ++ bs }))

/-- 20_memory section 1 (R42): but for reset, a command takes at most one byte, from the head, and
only OUT.POP does; it adds bytes at the tail alone, and only the framer does. -/
def Obligations.QueueIsFirstInFirstOut : Prop :=
  ∀ (i : Instr) (s : State), i ≠ .sysRst → ∃ (t : State) (k : Nat) (bs : List Byte),
    exec i s = .next t ∧ t.out = s.out.drop k ++ bs ∧
    (k = 0 ∨ (k = 1 ∧ i = .outPop)) ∧ (bs = [] ∨ i.ofFramer = true) ∧ bs.length ≤ 11

/-- 20_memory section 6 (R50) and 00_scope section 3 (R4): a step takes the first of the host's
events and no other, keeps every response already returned and adds at most one, and never changes
the parameter. -/
def Obligations.StepTakesEventsInOrder : Prop :=
  ∀ s : State, ∃ t : State, step s = .next t ∧ t.pending = s.pending.drop 1 ∧
    t.outDepth = s.outDepth ∧
    ∃ rs : List Word, rs.length ≤ 1 ∧ t.responses = s.responses ++ rs

/-! ## Invariants -/

/-- The invariant of 10_state section 7 (R30 (a) to (d)), with the range of the parameter, at
reset. -/
def Obligations.ResetMeetsInvariant : Prop := State.reset.Inv

/-- 10_state section 7 (R30 (a) to (d)): from every state that meets the invariant, every step leads
to one that does. -/
def Obligations.StepKeepsInvariant : Prop :=
  ∀ s t : State, s.Inv → step s = .next t → t.Inv

/-! ## The checksums and the frame, over whole sequences -/

/-- 44_container_host_procedure section 1 (R151), 40_crc32 section 1 (R83): the words of CRC.INIT,
of CRC.UPD for each byte, and of CRC.FIN, sent through the port from any state with no fault, take
`len(s) + 2` steps and return `crc32` of the bytes; only the CRC unit has changed. -/
def Obligations.CrcStreamReturnsTheChecksum : Prop :=
  ∀ (s : State) (bytes : List Byte) (rest : List HostEvent),
    s.flt = false → s.TableValid → s.pending = asEvents (hpCrc32 bytes) ++ rest →
    ∃ (tab : Table) (tv : Bool),
      core.run (bytes.length + 2) s = .next { s with
        t := tab
        tv := tv
        crc := crc32 bytes ^^^ 0xFFFFFFFF
        pending := rest
        responses := s.responses ++ [crc32 bytes] }

/-- 44_container_host_procedure section 1 (R152), 41_adler32 section 1 (R102): the same for
`adler32`; only the Adler unit has changed. -/
def Obligations.AdlerStreamReturnsTheChecksum : Prop :=
  ∀ (s : State) (bytes : List Byte) (rest : List HostEvent),
    s.flt = false → s.pending = asEvents (hpAdler32 bytes) ++ rest →
    ∃ a b : Half,
      core.run (bytes.length + 2) s = .next { s with
        a := a
        b := b
        pending := rest
        responses := s.responses ++ [adler32 bytes] }

/-- R88: the response, and that it is the checksum of all the bytes fed since the last CRC.INIT or
reset, whatever commands stood between, as long as none faulted. -/
def Obligations.CrcFinCoversAllBytesSinceInit : Prop :=
  (∀ s : State, s.flt = false →
    exec .crcFin s = .next { s with responses := s.responses ++ [s.crc ^^^ 0xFFFFFFFF] }) ∧
  (∀ (s t : State) (first : Instr) (cmds : List Instr),
    s.TableValid → first = .crcInit ∨ first = .sysRst → .crcInit ∉ cmds → .sysRst ∉ cmds →
    runCommands (first :: cmds) s = .next t → t.flt = false →
    exec .crcFin t = .next { t with responses := t.responses ++ [crc32 (crcBytesOf cmds)] })

/-- R105: the response, and that it is the Adler-32 of all the bytes fed since the last ADL.INIT or
reset, whatever commands stood between, as long as none faulted. -/
def Obligations.AdlFinCoversAllBytesSinceInit : Prop :=
  (∀ s : State, s.flt = false →
    exec .adlFin s = .next { s with
      responses := s.responses ++ [(s.b.setWidth 32 <<< 16) ||| s.a.setWidth 32] }) ∧
  (∀ (s t : State) (first : Instr) (cmds : List Instr),
    first = .adlInit ∨ first = .sysRst → .adlInit ∉ cmds → .sysRst ∉ cmds →
    runCommands (first :: cmds) s = .next t → t.flt = false →
    exec .adlFin t = .next { t with responses := t.responses ++ [adler32 (adlBytesOf cmds)] })

/-- R124: FRM.BEGIN n and then the n payload bytes, with any commands of the other units, queue reads
and status reads interleaved, complete without a fault where the whole frame has room from the start;
and wherever they end without a fault (so there was room throughout), they have appended exactly
`zstore` of the payload and no frame is open; pops only remove bytes from the head. -/
def Obligations.FrameIsZstoreOfItsPayload : Prop :=
  ∀ (s : State) (n : Half) (cmds : List Instr),
    s.flt = false → s.rem = 0 → (∀ i ∈ cmds, i.keepsFrame = true) →
    (payloadOf cmds).length = n.toNat →
    (n.toNat + 11 ≤ s.outDepth - s.out.length →
      ∃ t, runCommands (.frmBegin n :: cmds) s = .next t ∧ t.flt = false) ∧
    (∀ t, runCommands (.frmBegin n :: cmds) s = .next t → t.flt = false →
      t.rem = 0 ∧ ∃ k ≤ cmds.count .outPop,
        t.out = (s.out ++ zstore (payloadOf cmds)).drop k)

/-- 10_state section 7 (R30 (e)): while a frame is open, the framer's sums are `adler32` of exactly
the payload bytes accepted so far, whatever was interleaved, and REM counts those still expected. -/
def Obligations.OpenFrameSumsFollowThePayload : Prop :=
  ∀ (s : State) (n : Half) (cmds : List Instr),
    s.flt = false → s.rem = 0 → (∀ i ∈ cmds, i.keepsFrame = true) →
    (payloadOf cmds).length < n.toNat →
    ((payloadOf cmds).length + 7 ≤ s.outDepth - s.out.length →
      ∃ t, runCommands (.frmBegin n :: cmds) s = .next t ∧ t.flt = false) ∧
    (∀ t, runCommands (.frmBegin n :: cmds) s = .next t → t.flt = false →
      t.rem.toNat = n.toNat - (payloadOf cmds).length ∧
      t.fb.toNat * 65536 + t.fa.toNat = (adler32 (payloadOf cmds)).toNat ∧
      ∃ k ≤ cmds.count .outPop, t.out = (s.out ++ frameHead n ++ payloadOf cmds).drop k)

/-- 44_container_host_procedure section 1 (R153): the frame and then `n + 11` pops return the bytes of
`zstore`, each with the valid bit, and the run is clean with its output delivered. -/
def Obligations.ZstoreIsReadBackByPops : Prop :=
  ∀ (s : State) (bytes : List Byte),
    s.Delivered → bytes.length ≤ 65535 → bytes.length + 11 ≤ s.outDepth →
    ∃ t : State, runCommands (hpZstore bytes) s = .next t ∧ t.Delivered ∧
      t.responses = s.responses ++ (zstore bytes).map fun b => 0x00000100 ||| b.setWidth 32

/-! ## The algorithms -/

/-- 20_memory section 2 (R53): the table-driven update is the same as taking the byte's bits one by
one, bit 0 first, through the reflected register: XOR the byte into the low 8 bits, then eight
rounds of R81. -/
def Obligations.TableUpdateIsBitSerial : Prop :=
  ∀ (r : Word) (b : Byte), crcStep r b = tblRounds 8 (r ^^^ b.setWidth 32)

/-- R115: the frame's bytes, offset by offset. -/
def Obligations.ZstoreLayout : Prop :=
  ∀ s : List Byte, s.length ≤ 65535 →
    (zstore s).length = s.length + 11 ∧
    (zstore s)[0]? = some 0x78 ∧ (zstore s)[1]? = some 0x01 ∧ (zstore s)[2]? = some 0x01 ∧
    (zstore s)[3]? = some (BitVec.ofNat 8 (s.length % 256)) ∧
    (zstore s)[4]? = some (BitVec.ofNat 8 (s.length / 256)) ∧
    (zstore s)[5]? = some (BitVec.ofNat 8 (255 - s.length % 256)) ∧
    (zstore s)[6]? = some (BitVec.ofNat 8 (255 - s.length / 256)) ∧
    (∀ k < s.length, (zstore s)[7 + k]? = s[k]?) ∧
    (∀ j < 4, (zstore s)[7 + s.length + j]? =
      some (BitVec.ofNat 8 ((adler32 s).toNat / 256 ^ (3 - j) % 256)))

/-- 41_adler32 section 1 (R106): over reduced sums a single subtraction does each reduction, and the
new sums are reduced. -/
def Obligations.OneSubtractionReducesASum : Prop :=
  ∀ (a b : Half) (x : Byte), a.toNat < 65521 → b.toNat < 65521 → ∃ a' b' : Half,
    adlerStep (a, b) x = (a', b') ∧
    a'.toNat = (if a.toNat + x.toNat < 65521 then a.toNat + x.toNat
      else a.toNat + x.toNat - 65521) ∧
    b'.toNat = (if b.toNat + a'.toNat < 65521 then b.toNat + a'.toNat
      else b.toNat + a'.toNat - 65521)

/-! ## What can be observed -/

/-- 10_state sections 2 and 9 (R22, R35): the contents of a table that is not valid are never seen:
states that differ in nothing else take steps to states that differ in nothing else, with the same
responses. -/
def Obligations.InvalidTableIsUnobservable : Prop :=
  ∀ s u : State, s.observable = u.observable →
    mapNext State.observable (step s) = mapNext State.observable (step u)

/-- R5: after a reset the responses and the queue are a function of the words received since and of
`OUT_DEPTH` alone: two blocks of the same depth, in any two states, that are reset and then sent the
same events return the same responses and hold the same state, but for a table that is not valid. -/
def Obligations.AfterResetOnlyTheWordsMatter : Prop :=
  ∀ (s u : State) (events : List HostEvent) (n : Nat),
    s.pending = .reset :: events → u.pending = .reset :: events → s.outDepth = u.outDepth →
    ∃ (t v : State) (rs : List Word),
      core.run (n + 1) s = .next t ∧ core.run (n + 1) u = .next v ∧
      t.responses = s.responses ++ rs ∧ v.responses = u.responses ++ rs ∧
      { t.observable with responses := [] } = { v.observable with responses := [] }

/-- 40_crc32 section 1 (R84): building the table early changes no result of any command but the bit
TV that SYS.STAT shows: the two answers of SYS.STAT agree in bits 31:1, and bit 0 is 1 with the table
built early and TV otherwise. -/
def Obligations.EagerAndLazyTablesAgree : Prop :=
  (∀ (i : Instr) (s : State), s.TableValid → i ≠ .sysStat →
    mapNext State.tblInit (exec i s.tblInit) = mapNext State.tblInit (exec i s)) ∧
  (∀ s : State, ∃ early late : Word,
    exec .sysStat s.tblInit =
      .next { s.tblInit with responses := s.tblInit.responses ++ [early] } ∧
    exec .sysStat s = .next { s with responses := s.responses ++ [late] } ∧
    early.extractLsb' 1 31 = late.extractLsb' 1 31 ∧
    early.getLsbD 0 = true ∧ late.getLsbD 0 = s.tv)

/-! ## The host's container, over the checksums and the frame -/

/-- 44_container_host_procedure section 3 (R159, R161 (b) and (d)): every image is 73 bytes, and two
images agree at every offset but 49 to 60. -/
def Obligations.ImagesDifferInTwelveBytes : Prop :=
  ∀ r g b a r' g' b' a' : Byte,
    (hpImage r g b a).length = 73 ∧
    ∀ k : Nat, k < 49 ∨ 60 < k → (hpImage r g b a)[k]? = (hpImage r' g' b' a')[k]?

/-! ## The fault record over a run -/

/-- R138: the answer is FINFO; it is 0 when no fault is latched and the record is legal (R30 (c)); and
from the word `w` that raises a fault on, whatever events that are no reset follow, FLT stays set and
SYS.FINFO answers `w`; for the all-zero word that answer is 0, with FLT set. -/
def Obligations.FinfoNamesTheWordThatFaulted : Prop :=
  decode 0x04000000 = .command .sysFinfo ∧
  (∀ s : State, exec .sysFinfo s = .next { s with responses := s.responses ++ [s.finfo] }) ∧
  (∀ s : State, s.RecordLegal → s.flt = false →
    exec .sysFinfo s = .next { s with responses := s.responses ++ [0] }) ∧
  (∀ (s : State) (rest : List HostEvent), s.pending = .command 0x00000000 :: rest → s.flt = false →
    step s = .next { s with pending := rest, flt := true, fcode := 1, finfo := 0 }) ∧
  (∀ (s t u : State) (w : Word) (rest : List HostEvent) (n : Nat),
    s.pending = .command w :: rest → s.flt = false → step s = .next t → t.flt = true →
    .reset ∉ rest.take n → .command 0x02000000 ∉ rest.take n → core.run n t = .next u →
    u.flt = true ∧ exec .sysFinfo u = .next { u with responses := u.responses ++ [w] })
end

