-- ==== Sys2Proof/Laws/State.lean ====
section
/-!
SUPPORT. What each named update of the state leaves in each field: one lemma per field and update,
each true by unfolding the one record update, so that no later proof unfolds one.
-/

namespace Sys2Proof.Machine

variable (s : State)

/-! ### `setCrc` -/

@[simp] theorem State.setCrc_t (v : Word) : (s.setCrc v).t = s.t := rfl
@[simp] theorem State.setCrc_tv (v : Word) : (s.setCrc v).tv = s.tv := rfl
@[simp] theorem State.setCrc_crc (v : Word) : (s.setCrc v).crc = v := rfl
@[simp] theorem State.setCrc_a (v : Word) : (s.setCrc v).a = s.a := rfl
@[simp] theorem State.setCrc_b (v : Word) : (s.setCrc v).b = s.b := rfl
@[simp] theorem State.setCrc_fa (v : Word) : (s.setCrc v).fa = s.fa := rfl
@[simp] theorem State.setCrc_fb (v : Word) : (s.setCrc v).fb = s.fb := rfl
@[simp] theorem State.setCrc_rem (v : Word) : (s.setCrc v).rem = s.rem := rfl
@[simp] theorem State.setCrc_out (v : Word) : (s.setCrc v).out = s.out := rfl
@[simp] theorem State.setCrc_flt (v : Word) : (s.setCrc v).flt = s.flt := rfl
@[simp] theorem State.setCrc_fcode (v : Word) : (s.setCrc v).fcode = s.fcode := rfl
@[simp] theorem State.setCrc_finfo (v : Word) : (s.setCrc v).finfo = s.finfo := rfl
@[simp] theorem State.setCrc_outDepth (v : Word) : (s.setCrc v).outDepth = s.outDepth := rfl
@[simp] theorem State.setCrc_freeIx (v : Word) : (s.setCrc v).freeIx = s.freeIx := rfl
@[simp] theorem State.setCrc_pending (v : Word) : (s.setCrc v).pending = s.pending := rfl
@[simp] theorem State.setCrc_responses (v : Word) : (s.setCrc v).responses = s.responses := rfl

/-! ### `setSums` -/

@[simp] theorem State.setSums_t (p : Half × Half) : (s.setSums p).t = s.t := rfl
@[simp] theorem State.setSums_tv (p : Half × Half) : (s.setSums p).tv = s.tv := rfl
@[simp] theorem State.setSums_crc (p : Half × Half) : (s.setSums p).crc = s.crc := rfl
@[simp] theorem State.setSums_a (p : Half × Half) : (s.setSums p).a = p.1 := rfl
@[simp] theorem State.setSums_b (p : Half × Half) : (s.setSums p).b = p.2 := rfl
@[simp] theorem State.setSums_fa (p : Half × Half) : (s.setSums p).fa = s.fa := rfl
@[simp] theorem State.setSums_fb (p : Half × Half) : (s.setSums p).fb = s.fb := rfl
@[simp] theorem State.setSums_rem (p : Half × Half) : (s.setSums p).rem = s.rem := rfl
@[simp] theorem State.setSums_out (p : Half × Half) : (s.setSums p).out = s.out := rfl
@[simp] theorem State.setSums_flt (p : Half × Half) : (s.setSums p).flt = s.flt := rfl
@[simp] theorem State.setSums_fcode (p : Half × Half) : (s.setSums p).fcode = s.fcode := rfl
@[simp] theorem State.setSums_finfo (p : Half × Half) : (s.setSums p).finfo = s.finfo := rfl
@[simp] theorem State.setSums_outDepth (p : Half × Half) :
    (s.setSums p).outDepth = s.outDepth := rfl
@[simp] theorem State.setSums_freeIx (p : Half × Half) : (s.setSums p).freeIx = s.freeIx := rfl
@[simp] theorem State.setSums_pending (p : Half × Half) : (s.setSums p).pending = s.pending := rfl
@[simp] theorem State.setSums_responses (p : Half × Half) :
    (s.setSums p).responses = s.responses := rfl

/-! ### `setFrameSums` -/

@[simp] theorem State.setFrameSums_t (p : Half × Half) : (s.setFrameSums p).t = s.t := rfl
@[simp] theorem State.setFrameSums_tv (p : Half × Half) : (s.setFrameSums p).tv = s.tv := rfl
@[simp] theorem State.setFrameSums_crc (p : Half × Half) : (s.setFrameSums p).crc = s.crc := rfl
@[simp] theorem State.setFrameSums_a (p : Half × Half) : (s.setFrameSums p).a = s.a := rfl
@[simp] theorem State.setFrameSums_b (p : Half × Half) : (s.setFrameSums p).b = s.b := rfl
@[simp] theorem State.setFrameSums_fa (p : Half × Half) : (s.setFrameSums p).fa = p.1 := rfl
@[simp] theorem State.setFrameSums_fb (p : Half × Half) : (s.setFrameSums p).fb = p.2 := rfl
@[simp] theorem State.setFrameSums_rem (p : Half × Half) : (s.setFrameSums p).rem = s.rem := rfl
@[simp] theorem State.setFrameSums_out (p : Half × Half) : (s.setFrameSums p).out = s.out := rfl
@[simp] theorem State.setFrameSums_flt (p : Half × Half) : (s.setFrameSums p).flt = s.flt := rfl
@[simp] theorem State.setFrameSums_fcode (p : Half × Half) :
    (s.setFrameSums p).fcode = s.fcode := rfl
@[simp] theorem State.setFrameSums_finfo (p : Half × Half) :
    (s.setFrameSums p).finfo = s.finfo := rfl
@[simp] theorem State.setFrameSums_outDepth (p : Half × Half) :
    (s.setFrameSums p).outDepth = s.outDepth := rfl
@[simp] theorem State.setFrameSums_freeIx (p : Half × Half) :
    (s.setFrameSums p).freeIx = s.freeIx := rfl
@[simp] theorem State.setFrameSums_pending (p : Half × Half) :
    (s.setFrameSums p).pending = s.pending := rfl
@[simp] theorem State.setFrameSums_responses (p : Half × Half) :
    (s.setFrameSums p).responses = s.responses := rfl

/-! ### `setRem` -/

@[simp] theorem State.setRem_t (n : Half) : (s.setRem n).t = s.t := rfl
@[simp] theorem State.setRem_tv (n : Half) : (s.setRem n).tv = s.tv := rfl
@[simp] theorem State.setRem_crc (n : Half) : (s.setRem n).crc = s.crc := rfl
@[simp] theorem State.setRem_a (n : Half) : (s.setRem n).a = s.a := rfl
@[simp] theorem State.setRem_b (n : Half) : (s.setRem n).b = s.b := rfl
@[simp] theorem State.setRem_fa (n : Half) : (s.setRem n).fa = s.fa := rfl
@[simp] theorem State.setRem_fb (n : Half) : (s.setRem n).fb = s.fb := rfl
@[simp] theorem State.setRem_rem (n : Half) : (s.setRem n).rem = n := rfl
@[simp] theorem State.setRem_out (n : Half) : (s.setRem n).out = s.out := rfl
@[simp] theorem State.setRem_flt (n : Half) : (s.setRem n).flt = s.flt := rfl
@[simp] theorem State.setRem_fcode (n : Half) : (s.setRem n).fcode = s.fcode := rfl
@[simp] theorem State.setRem_finfo (n : Half) : (s.setRem n).finfo = s.finfo := rfl
@[simp] theorem State.setRem_outDepth (n : Half) : (s.setRem n).outDepth = s.outDepth := rfl
@[simp] theorem State.setRem_freeIx (n : Half) : (s.setRem n).freeIx = s.freeIx := rfl
@[simp] theorem State.setRem_pending (n : Half) : (s.setRem n).pending = s.pending := rfl
@[simp] theorem State.setRem_responses (n : Half) : (s.setRem n).responses = s.responses := rfl

/-! ### `tblInit` -/

@[simp] theorem State.tblInit_t : s.tblInit.t = crcTable := rfl
@[simp] theorem State.tblInit_tv : s.tblInit.tv = true := rfl
@[simp] theorem State.tblInit_crc : s.tblInit.crc = s.crc := rfl
@[simp] theorem State.tblInit_a : s.tblInit.a = s.a := rfl
@[simp] theorem State.tblInit_b : s.tblInit.b = s.b := rfl
@[simp] theorem State.tblInit_fa : s.tblInit.fa = s.fa := rfl
@[simp] theorem State.tblInit_fb : s.tblInit.fb = s.fb := rfl
@[simp] theorem State.tblInit_rem : s.tblInit.rem = s.rem := rfl
@[simp] theorem State.tblInit_out : s.tblInit.out = s.out := rfl
@[simp] theorem State.tblInit_flt : s.tblInit.flt = s.flt := rfl
@[simp] theorem State.tblInit_fcode : s.tblInit.fcode = s.fcode := rfl
@[simp] theorem State.tblInit_finfo : s.tblInit.finfo = s.finfo := rfl
@[simp] theorem State.tblInit_outDepth : s.tblInit.outDepth = s.outDepth := rfl
@[simp] theorem State.tblInit_freeIx : s.tblInit.freeIx = s.freeIx := rfl
@[simp] theorem State.tblInit_pending : s.tblInit.pending = s.pending := rfl
@[simp] theorem State.tblInit_responses : s.tblInit.responses = s.responses := rfl

/-! ### `outPush` -/

@[simp] theorem State.outPush_t (bs : List Byte) : (s.outPush bs).t = s.t := rfl
@[simp] theorem State.outPush_tv (bs : List Byte) : (s.outPush bs).tv = s.tv := rfl
@[simp] theorem State.outPush_crc (bs : List Byte) : (s.outPush bs).crc = s.crc := rfl
@[simp] theorem State.outPush_a (bs : List Byte) : (s.outPush bs).a = s.a := rfl
@[simp] theorem State.outPush_b (bs : List Byte) : (s.outPush bs).b = s.b := rfl
@[simp] theorem State.outPush_fa (bs : List Byte) : (s.outPush bs).fa = s.fa := rfl
@[simp] theorem State.outPush_fb (bs : List Byte) : (s.outPush bs).fb = s.fb := rfl
@[simp] theorem State.outPush_rem (bs : List Byte) : (s.outPush bs).rem = s.rem := rfl
@[simp] theorem State.outPush_out (bs : List Byte) : (s.outPush bs).out = s.out ++ bs := rfl
@[simp] theorem State.outPush_flt (bs : List Byte) : (s.outPush bs).flt = s.flt := rfl
@[simp] theorem State.outPush_fcode (bs : List Byte) : (s.outPush bs).fcode = s.fcode := rfl
@[simp] theorem State.outPush_finfo (bs : List Byte) : (s.outPush bs).finfo = s.finfo := rfl
@[simp] theorem State.outPush_outDepth (bs : List Byte) :
    (s.outPush bs).outDepth = s.outDepth := rfl
@[simp] theorem State.outPush_freeIx (bs : List Byte) : (s.outPush bs).freeIx = s.freeIx := rfl
@[simp] theorem State.outPush_pending (bs : List Byte) : (s.outPush bs).pending = s.pending := rfl
@[simp] theorem State.outPush_responses (bs : List Byte) :
    (s.outPush bs).responses = s.responses := rfl

/-! ### `outDrop` -/

@[simp] theorem State.outDrop_t : s.outDrop.t = s.t := rfl
@[simp] theorem State.outDrop_tv : s.outDrop.tv = s.tv := rfl
@[simp] theorem State.outDrop_crc : s.outDrop.crc = s.crc := rfl
@[simp] theorem State.outDrop_a : s.outDrop.a = s.a := rfl
@[simp] theorem State.outDrop_b : s.outDrop.b = s.b := rfl
@[simp] theorem State.outDrop_fa : s.outDrop.fa = s.fa := rfl
@[simp] theorem State.outDrop_fb : s.outDrop.fb = s.fb := rfl
@[simp] theorem State.outDrop_rem : s.outDrop.rem = s.rem := rfl
@[simp] theorem State.outDrop_out : s.outDrop.out = s.out.drop 1 := rfl
@[simp] theorem State.outDrop_flt : s.outDrop.flt = s.flt := rfl
@[simp] theorem State.outDrop_fcode : s.outDrop.fcode = s.fcode := rfl
@[simp] theorem State.outDrop_finfo : s.outDrop.finfo = s.finfo := rfl
@[simp] theorem State.outDrop_outDepth : s.outDrop.outDepth = s.outDepth := rfl
@[simp] theorem State.outDrop_freeIx : s.outDrop.freeIx = s.freeIx := rfl
@[simp] theorem State.outDrop_pending : s.outDrop.pending = s.pending := rfl
@[simp] theorem State.outDrop_responses : s.outDrop.responses = s.responses := rfl

/-! ### `respond` -/

@[simp] theorem State.respond_t (v : Word) : (s.respond v).t = s.t := rfl
@[simp] theorem State.respond_tv (v : Word) : (s.respond v).tv = s.tv := rfl
@[simp] theorem State.respond_crc (v : Word) : (s.respond v).crc = s.crc := rfl
@[simp] theorem State.respond_a (v : Word) : (s.respond v).a = s.a := rfl
@[simp] theorem State.respond_b (v : Word) : (s.respond v).b = s.b := rfl
@[simp] theorem State.respond_fa (v : Word) : (s.respond v).fa = s.fa := rfl
@[simp] theorem State.respond_fb (v : Word) : (s.respond v).fb = s.fb := rfl
@[simp] theorem State.respond_rem (v : Word) : (s.respond v).rem = s.rem := rfl
@[simp] theorem State.respond_out (v : Word) : (s.respond v).out = s.out := rfl
@[simp] theorem State.respond_flt (v : Word) : (s.respond v).flt = s.flt := rfl
@[simp] theorem State.respond_fcode (v : Word) : (s.respond v).fcode = s.fcode := rfl
@[simp] theorem State.respond_finfo (v : Word) : (s.respond v).finfo = s.finfo := rfl
@[simp] theorem State.respond_outDepth (v : Word) : (s.respond v).outDepth = s.outDepth := rfl
@[simp] theorem State.respond_freeIx (v : Word) : (s.respond v).freeIx = s.freeIx := rfl
@[simp] theorem State.respond_pending (v : Word) : (s.respond v).pending = s.pending := rfl
@[simp] theorem State.respond_responses (v : Word) :
    (s.respond v).responses = s.responses ++ [v] := rfl

/-! ### `setPending` -/

@[simp] theorem State.setPending_t (p : List HostEvent) : (s.setPending p).t = s.t := rfl
@[simp] theorem State.setPending_tv (p : List HostEvent) : (s.setPending p).tv = s.tv := rfl
@[simp] theorem State.setPending_crc (p : List HostEvent) : (s.setPending p).crc = s.crc := rfl
@[simp] theorem State.setPending_a (p : List HostEvent) : (s.setPending p).a = s.a := rfl
@[simp] theorem State.setPending_b (p : List HostEvent) : (s.setPending p).b = s.b := rfl
@[simp] theorem State.setPending_fa (p : List HostEvent) : (s.setPending p).fa = s.fa := rfl
@[simp] theorem State.setPending_fb (p : List HostEvent) : (s.setPending p).fb = s.fb := rfl
@[simp] theorem State.setPending_rem (p : List HostEvent) : (s.setPending p).rem = s.rem := rfl
@[simp] theorem State.setPending_out (p : List HostEvent) : (s.setPending p).out = s.out := rfl
@[simp] theorem State.setPending_flt (p : List HostEvent) : (s.setPending p).flt = s.flt := rfl
@[simp] theorem State.setPending_fcode (p : List HostEvent) :
    (s.setPending p).fcode = s.fcode := rfl
@[simp] theorem State.setPending_finfo (p : List HostEvent) :
    (s.setPending p).finfo = s.finfo := rfl
@[simp] theorem State.setPending_outDepth (p : List HostEvent) :
    (s.setPending p).outDepth = s.outDepth := rfl
@[simp] theorem State.setPending_freeIx (p : List HostEvent) :
    (s.setPending p).freeIx = s.freeIx := rfl
@[simp] theorem State.setPending_pending (p : List HostEvent) : (s.setPending p).pending = p := rfl
@[simp] theorem State.setPending_responses (p : List HostEvent) :
    (s.setPending p).responses = s.responses := rfl

/-! ### `latch` -/

@[simp] theorem State.latch_t (c : Cause) (w : Word) : (s.latch c w).t = s.t := rfl
@[simp] theorem State.latch_tv (c : Cause) (w : Word) : (s.latch c w).tv = s.tv := rfl
@[simp] theorem State.latch_crc (c : Cause) (w : Word) : (s.latch c w).crc = s.crc := rfl
@[simp] theorem State.latch_a (c : Cause) (w : Word) : (s.latch c w).a = s.a := rfl
@[simp] theorem State.latch_b (c : Cause) (w : Word) : (s.latch c w).b = s.b := rfl
@[simp] theorem State.latch_fa (c : Cause) (w : Word) : (s.latch c w).fa = s.fa := rfl
@[simp] theorem State.latch_fb (c : Cause) (w : Word) : (s.latch c w).fb = s.fb := rfl
@[simp] theorem State.latch_rem (c : Cause) (w : Word) : (s.latch c w).rem = s.rem := rfl
@[simp] theorem State.latch_out (c : Cause) (w : Word) : (s.latch c w).out = s.out := rfl
@[simp] theorem State.latch_flt (c : Cause) (w : Word) : (s.latch c w).flt = true := rfl
@[simp] theorem State.latch_fcode (c : Cause) (w : Word) : (s.latch c w).fcode = faultCode c := rfl
@[simp] theorem State.latch_finfo (c : Cause) (w : Word) : (s.latch c w).finfo = w := rfl
@[simp] theorem State.latch_outDepth (c : Cause) (w : Word) :
    (s.latch c w).outDepth = s.outDepth := rfl
@[simp] theorem State.latch_freeIx (c : Cause) (w : Word) : (s.latch c w).freeIx = s.freeIx := rfl
@[simp] theorem State.latch_pending (c : Cause) (w : Word) :
    (s.latch c w).pending = s.pending := rfl
@[simp] theorem State.latch_responses (c : Cause) (w : Word) :
    (s.latch c w).responses = s.responses := rfl

/-! ### `resetBlock` -/

@[simp] theorem State.resetBlock_t : s.resetBlock.t = freeTable s.freeIx := rfl
@[simp] theorem State.resetBlock_tv : s.resetBlock.tv = false := rfl
@[simp] theorem State.resetBlock_crc : s.resetBlock.crc = 0xFFFFFFFF := rfl
@[simp] theorem State.resetBlock_a : s.resetBlock.a = 1 := rfl
@[simp] theorem State.resetBlock_b : s.resetBlock.b = 0 := rfl
@[simp] theorem State.resetBlock_fa : s.resetBlock.fa = 1 := rfl
@[simp] theorem State.resetBlock_fb : s.resetBlock.fb = 0 := rfl
@[simp] theorem State.resetBlock_rem : s.resetBlock.rem = 0 := rfl
@[simp] theorem State.resetBlock_out : s.resetBlock.out = [] := rfl
@[simp] theorem State.resetBlock_flt : s.resetBlock.flt = false := rfl
@[simp] theorem State.resetBlock_fcode : s.resetBlock.fcode = 0 := rfl
@[simp] theorem State.resetBlock_finfo : s.resetBlock.finfo = 0 := rfl
@[simp] theorem State.resetBlock_outDepth : s.resetBlock.outDepth = s.outDepth := rfl
@[simp] theorem State.resetBlock_freeIx : s.resetBlock.freeIx = s.freeIx + 1 := rfl
@[simp] theorem State.resetBlock_pending : s.resetBlock.pending = s.pending := rfl
@[simp] theorem State.resetBlock_responses : s.resetBlock.responses = s.responses := rfl

end Sys2Proof.Machine
end

