-- ==== Sys2Proof/Laws/Ops.lean ====
section
/-!
SUPPORT. One lemma per shared operation that says once everything it can do: the table, the queue,
the gate of a faulted block, fault entry, the framer's two effects, and the command port.
-/

namespace Sys2Proof.Machine

/-! ### Tables -/

@[simp] theorem tableEntry_tableOf (g : Byte → Word) (i : Byte) :
    tableEntry (tableOf g) i = g i := by
  simp [tableEntry, tableOf]

@[simp] theorem tableEntry_crcTable (i : Byte) : tableEntry crcTable i = tbl i :=
  tableEntry_tableOf tbl i

/-- Two tables with the same entries are the same table. -/
theorem table_ext {t u : Table} (h : ∀ i : Byte, tableEntry t i = tableEntry u i) : t = u := by
  apply Vector.ext
  intro i hi
  have := h (BitVec.ofNat 8 i)
  simpa [tableEntry, Nat.mod_eq_of_lt hi] using this

/-- `TblRead` makes the table ready in one of two ways. -/
theorem tblReady_cases (s : State) :
    (s.tv = true ∧ s.tblReady = s) ∨ (s.tv = false ∧ s.tblReady = s.tblInit) := by
  cases h : s.tv <;> simp [State.tblReady, h]

@[simp] theorem tblReady_tv (s : State) : s.tblReady.tv = true := by
  rcases tblReady_cases s with ⟨h, e⟩ | ⟨_, e⟩ <;> simp [*]

/-- Over a valid table, `TblRead` leaves the table of R81 and the flag set. -/
theorem tblReady_of_valid {s : State} (h : s.tv = true → s.t = crcTable) :
    s.tblReady = s.tblInit := by
  rcases tblReady_cases s with ⟨hv, e⟩ | ⟨_, e⟩
  · rw [e]; obtain ⟨⟩ := s; simp_all [State.tblInit]
  · exact e

/-- Over a valid table, `TblRead(i)` returns `tbl(i)`. -/
theorem tblRead_of_valid {s : State} (h : s.tv = true → s.t = crcTable) (i : Byte) :
    s.tblRead i = tbl i := by
  simp [State.tblRead, tblReady_of_valid h]

/-- Making the table ready touches the table and its flag alone. -/
theorem tblReady_frame (s : State) : ∃ t tv, s.tblReady = { s with t := t, tv := tv } := by
  rcases tblReady_cases s with ⟨_, e⟩ | ⟨_, e⟩ <;> rw [e]
  · exact ⟨s.t, s.tv, rfl⟩
  · exact ⟨crcTable, true, rfl⟩

/-! ### Lengths of what the framer pushes -/

@[simp] theorem le16_length (v : Half) : (le16 v).length = 2 := rfl

@[simp] theorem be32_length (v : Word) : (be32 v).length = 4 := rfl

@[simp] theorem frameHead_length (n : Half) : (frameHead n).length = 7 := rfl

@[simp] theorem beginBytes_length (n : Half) : (beginBytes n).length = beginNeed n := by
  unfold beginBytes beginNeed
  split <;> rfl

/-! ### The queue -/

/-- A push that fits keeps the queue within its capacity. -/
theorem outPush_bounded {s : State} {bs : List Byte} (hb : s.out.length ≤ s.outDepth)
    (hf : bs.length ≤ s.outFree) : (s.outPush bs).out.length ≤ (s.outPush bs).outDepth := by
  simp only [State.outPush_out, State.outPush_outDepth, List.length_append]
  unfold State.outFree at hf
  omega

/-- A pop keeps the queue within its capacity. -/
theorem outDrop_bounded {s : State} (hb : s.out.length ≤ s.outDepth) :
    s.outDrop.out.length ≤ s.outDrop.outDepth := by
  simp only [State.outDrop_out, State.outDrop_outDepth, List.length_drop]
  omega

/-- A pop takes the head, if there is one. -/
theorem outDrop_of_cons {s : State} {x : Byte} {rest : List Byte} (h : s.out = x :: rest) :
    s.outDrop = { s with out := rest } := by simp [State.outDrop, h]

/-! ### The sums -/

/-- `adler_step` leaves reduced sums, whatever it starts from. -/
theorem adlerStep_reduced (p : Half × Half) (x : Byte) :
    (adlerStep p x).1.toNat < 65521 ∧ (adlerStep p x).2.toNat < 65521 := by
  simp only [adlerStep, adlerMod, BitVec.toNat_ofNat]
  omega

/-- `adler_step` in integers: the reduced sums fit their 16 bits. -/
theorem adlerStep_toNat (p : Half × Half) (x : Byte) :
    (adlerStep p x).1.toNat = (p.1.toNat + x.toNat) % 65521 ∧
    (adlerStep p x).2.toNat = (p.2.toNat + (p.1.toNat + x.toNat) % 65521) % 65521 := by
  simp only [adlerStep, adlerMod, BitVec.toNat_ofNat]
  omega

/-! ### The gate of a faulted block, and fault entry -/

@[simp] theorem unlessFaulted_faulted {s : State} (h : s.flt = true) (act : Result) :
    unlessFaulted s act = .next s := by simp [unlessFaulted, h]

@[simp] theorem unlessFaulted_ready {s : State} (h : s.flt = false) (act : Result) :
    unlessFaulted s act = act := by simp [unlessFaulted, h]

/-- Where a gated command answers a next state: it was dropped, or it acted. -/
theorem unlessFaulted_next {s t : State} {act : Result} (h : unlessFaulted s act = .next t) :
    (s.flt = true ∧ t = s) ∨ (s.flt = false ∧ act = .next t) := by
  cases hf : s.flt <;> simp_all [unlessFaulted]

/-- Fault entry always answers the state with the record set. -/
theorem raiseFault_next {c : Cause} {w : Word} {s t : State} (h : raiseFault c w s = .next t) :
    t = s.latch c w := by simpa [raiseFault, eq_comm] using h

/-- An illegal word is dropped while faulted, and is recorded otherwise. -/
theorem illegalCommand_next {w : Word} {s t : State} (h : illegalCommand w s = .next t) :
    (s.flt = true ∧ t = s) ∨ (s.flt = false ∧ t = s.latch .illegalCmd w) := by
  rcases unlessFaulted_next h with ⟨hf, e⟩ | ⟨hf, e⟩
  · exact .inl ⟨hf, e⟩
  · exact .inr ⟨hf, raiseFault_next e⟩

/-- The four codes are 1 to 4. -/
theorem faultCode_range (c : Cause) : 1 ≤ (faultCode c).toNat ∧ (faultCode c).toNat ≤ 4 := by
  cases c <;> decide

/-! ### The framer -/

/-- Where `FRM.BEGIN` answers a next state, one of four things happened. -/
theorem execFrmBegin_next {n : Half} {s t : State} (h : execFrmBegin n s = .next t) :
    (s.flt = true ∧ t = s) ∨
    (s.flt = false ∧ s.rem ≠ 0 ∧ t = s.latch .frmOpen (encode (.frmBegin n))) ∨
    (s.flt = false ∧ s.rem = 0 ∧ s.outFree < beginNeed n ∧
      t = s.latch .outOvf (encode (.frmBegin n))) ∨
    (s.flt = false ∧ s.rem = 0 ∧ beginNeed n ≤ s.outFree ∧ t = openFrame n s) := by
  rcases unlessFaulted_next h with ⟨hf, e⟩ | ⟨hf, e⟩
  · exact .inl ⟨hf, e⟩
  split at e
  · exact .inr (.inl ⟨hf, ‹_›, raiseFault_next e⟩)
  · split at e
    · exact .inr (.inr (.inl ⟨hf, not_not.mp ‹_›, ‹_›, raiseFault_next e⟩))
    · exact .inr (.inr (.inr ⟨hf, not_not.mp ‹_›, not_lt.mp ‹_›, by simpa [eq_comm] using e⟩))

/-- Where `FRM.DATA` answers a next state, one of four things happened. -/
theorem execFrmData_next {x : Byte} {s t : State} (h : execFrmData x s = .next t) :
    (s.flt = true ∧ t = s) ∨
    (s.flt = false ∧ s.rem = 0 ∧ t = s.latch .frmClosed (encode (.frmData x))) ∨
    (s.flt = false ∧ s.rem ≠ 0 ∧ s.outFree < dataNeed s.rem ∧
      t = s.latch .outOvf (encode (.frmData x))) ∨
    (s.flt = false ∧ s.rem ≠ 0 ∧ dataNeed s.rem ≤ s.outFree ∧ t = acceptByte x s) := by
  rcases unlessFaulted_next h with ⟨hf, e⟩ | ⟨hf, e⟩
  · exact .inl ⟨hf, e⟩
  split at e
  · exact .inr (.inl ⟨hf, ‹_›, raiseFault_next e⟩)
  · split at e
    · exact .inr (.inr (.inl ⟨hf, ‹_›, ‹_›, raiseFault_next e⟩))
    · exact .inr (.inr (.inr ⟨hf, ‹_›, not_lt.mp ‹_›, by simpa [eq_comm] using e⟩))

/-- What `FRM.DATA` does to the block when it accepts a byte, in one record. -/
theorem acceptByte_eq (x : Byte) (s : State) :
    acceptByte x s =
      { s with
        out := s.out ++ [x] ++
          (if s.rem = 1 then be32 (adlerWord (adlerStep (s.fa, s.fb) x)) else [])
        fa := (adlerStep (s.fa, s.fb) x).1
        fb := (adlerStep (s.fa, s.fb) x).2
        rem := s.rem - 1 } := by
  unfold acceptByte State.outPush State.setFrameSums State.setRem
  by_cases h : s.rem = 1
  · simp only [if_pos h]
  · simp only [if_neg h, List.append_nil]

/-- What `FRM.BEGIN` does to the block when it opens a frame, in one record. -/
theorem openFrame_eq (n : Half) (s : State) :
    openFrame n s = { s with out := s.out ++ beginBytes n, fa := 1, fb := 0, rem := n } := rfl

/-! ### The command port -/

/-- The three things a step can do: nothing with no event pending, one word, or a reset. -/
theorem step_cases (s : State) :
    (s.pending = [] ∧ step s = .next s) ∨
    (∃ w rest, s.pending = .command w :: rest ∧ step s = execWord w (s.setPending rest)) ∨
    (∃ rest, s.pending = .reset :: rest ∧ step s = .next (s.setPending rest).resetBlock) := by
  unfold step takeEvent
  cases h : s.pending with
  | nil => exact .inl ⟨rfl, rfl⟩
  | cons e rest =>
    cases e with
    | command w => exact .inr (.inl ⟨w, rest, rfl, rfl⟩)
    | reset => exact .inr (.inr ⟨rest, rfl, rfl⟩)

/-- A word is a command to execute, or is illegal. -/
theorem execWord_cases (w : Word) (s : State) :
    (∃ i, decode w = .command i ∧ execWord w s = exec i s) ∨
    (∃ r, decode w = .illegal r ∧ execWord w s = illegalCommand w s) := by
  unfold execWord
  cases h : decode w with
  | command i => exact .inl ⟨i, rfl, rfl⟩
  | illegal r => exact .inr ⟨r, rfl, rfl⟩

/-- The word that `withFetchWord` puts first is the one the next step takes. -/
theorem step_withFetchWord (s : State) (nbits w : Nat) :
    step (s.withFetchWord nbits w) = execWord (BitVec.ofNat 32 w) s := rfl

end Sys2Proof.Machine
end

