-- ==== Sys2Proof/Laws/PerInstr.lean ====
section
/-!
SUPPORT. A law of every command as syntax: it is well formed, and the word that `encode` writes for
it fits the mask and match of the command's row in the opcode table (spec 30_encoding R63).
-/

namespace Sys2Proof.Laws.TableRow

open Sys2Proof Sys2Proof.Machine

/-- The command is well formed and its word fits its row of R63. -/
def Statement (i : Instr) : Prop :=
  i.wellFormed = true ∧ encode i &&& rowMask i.mnemonic = rowMatch i.mnemonic

/-- The operand field of format B lies outside the mask `0xFFFFFF00`. -/
theorem zextByte_masked (b : Byte) : zextByte b &&& 0xFFFFFF00 = 0#32 := by
  apply BitVec.eq_of_toNat_eq
  simp only [zextByte, BitVec.toNat_and, BitVec.toNat_setWidth]
  revert b; decide

/-- The operand field of format H lies outside the mask `0xFFFF0000`. -/
theorem zextHalf_masked (n : Half) : zextHalf n &&& 0xFFFF0000 = 0#32 := by
  ext i hi
  simp only [zextHalf, BitVec.getElem_and, BitVec.getElem_setWidth, BitVec.getElem_zero]
  by_cases h : i < 16
  · rw [Bool.and_eq_false_iff]
    have mask_low : ∀ j < 16, (0xFFFF0000#32).getLsbD j = false := by decide
    exact .inr (mask_low i h)
  · rw [BitVec.getLsbD_of_ge n i (by omega), Bool.false_and]

theorem byteWord_masked (m : Mnemonic) (b : Byte) :
    byteWord m b &&& 0xFFFFFF00 = opcodeWord m &&& 0xFFFFFF00 := by
  rw [byteWord, BitVec.and_comm, BitVec.and_or_distrib_left, BitVec.and_comm _ (zextByte b),
    zextByte_masked, BitVec.or_zero, BitVec.and_comm]

theorem halfWord_masked (m : Mnemonic) (n : Half) :
    halfWord m n &&& 0xFFFF0000 = opcodeWord m &&& 0xFFFF0000 := by
  rw [halfWord, BitVec.and_comm, BitVec.and_or_distrib_left, BitVec.and_comm _ (zextHalf n),
    zextHalf_masked, BitVec.or_zero, BitVec.and_comm]

theorem sysNop : Statement .sysNop := ⟨rfl, rfl⟩
theorem sysRst : Statement .sysRst := ⟨rfl, rfl⟩
theorem sysStat : Statement .sysStat := ⟨rfl, rfl⟩
theorem sysFinfo : Statement .sysFinfo := ⟨rfl, rfl⟩
theorem crcTinit : Statement .crcTinit := ⟨rfl, rfl⟩
theorem crcInit : Statement .crcInit := ⟨rfl, rfl⟩
theorem crcUpd (b : Byte) : Statement (.crcUpd b) :=
  ⟨decide_eq_true b.isLt, (byteWord_masked .crcUpd b).trans rfl⟩
theorem crcFin : Statement .crcFin := ⟨rfl, rfl⟩
theorem crcRdt (i : Byte) : Statement (.crcRdt i) :=
  ⟨decide_eq_true i.isLt, (byteWord_masked .crcRdt i).trans rfl⟩
theorem adlInit : Statement .adlInit := ⟨rfl, rfl⟩
theorem adlUpd (x : Byte) : Statement (.adlUpd x) :=
  ⟨decide_eq_true x.isLt, (byteWord_masked .adlUpd x).trans rfl⟩
theorem adlFin : Statement .adlFin := ⟨rfl, rfl⟩
theorem frmBegin (n : Half) : Statement (.frmBegin n) :=
  ⟨decide_eq_true n.isLt, (halfWord_masked .frmBegin n).trans rfl⟩
theorem frmData (x : Byte) : Statement (.frmData x) :=
  ⟨decide_eq_true x.isLt, (byteWord_masked .frmData x).trans rfl⟩
theorem outPop : Statement .outPop := ⟨rfl, rfl⟩
theorem outCnt : Statement .outCnt := ⟨rfl, rfl⟩

end Sys2Proof.Laws.TableRow
end

