-- ==== Sys2Proof/Laws/Safety.lean ====
section
/-!
SUPPORT. The small lemmas of the terms that claims use: outcomes mapped and chained, lists of
commands, and reset.
-/

namespace Sys2Proof.Machine

@[simp] theorem mapNext_next (f : State → State) (s : State) : mapNext f (.next s) = .next (f s) :=
  rfl

@[simp] theorem mapNext_ite (f : State → State) (c : Prop) [Decidable c] (x y : Result) :
    mapNext f (if c then x else y) = if c then mapNext f x else mapNext f y :=
  apply_ite (mapNext f) c x y

@[simp] theorem mapNext_raiseFault (f : State → State) (c : Cause) (w : Word) (s : State) :
    mapNext f (raiseFault c w s) = .next (f (s.latch c w)) := rfl

@[simp] theorem andThen_next (s : State) (k : State → Result) : andThen (.next s) k = k s := rfl

@[simp] theorem runCommands_nil (s : State) : runCommands [] s = .next s := rfl

@[simp] theorem runCommands_cons (i : Instr) (is : List Instr) (s : State) :
    runCommands (i :: is) s = andThen (exec i s) (runCommands is) := rfl

/-- Running one list of commands and then another is running both in a row (R50). -/
theorem runCommands_append (is js : List Instr) (s : State) :
    runCommands (is ++ js) s = andThen (runCommands is s) (runCommands js) := by
  induction is generalizing s with
  | nil => rfl
  | cons i is ih =>
    simp only [List.cons_append, runCommands_cons]
    cases exec i s with
    | next t => exact ih t
    | fault r => rfl
    | refused r => rfl

/-- A run of no steps. -/
theorem run_zero (s : State) : core.run 0 s = .next s := rfl

/-- A run whose first step answers `t` is the rest of the run from `t`. -/
theorem run_succ {s t : State} (h : step s = .next t) (n : Nat) :
    core.run (n + 1) s = core.run n t := by
  unfold core
  simp only [Host.Core.run, h]

/-- The payload of one list of commands after another is the two payloads in a row. -/
theorem payloadOf_append (is js : List Instr) :
    payloadOf (is ++ js) = payloadOf is ++ payloadOf js := by
  induction is with
  | nil => rfl
  | cons i is ih => cases i <;> simp [payloadOf, ih]

/-- Reset leaves every piece of the block's state at its reset value (R34). -/
theorem resetBlock_atReset (s : State) : s.resetBlock.AtReset := by simp [State.AtReset]

/-- Reset leaves the command port as it was. -/
theorem resetBlock_samePort (s : State) : s.SamePort s.resetBlock := by simp [State.SamePort]

/-- Feeding one sequence of bytes and then another is feeding both in a row (R92 (b)). -/
theorem crcFeed_append (r : Word) (s u : List Byte) :
    crcFeed r (s ++ u) = crcFeed (crcFeed r s) u := List.foldl_append

/-- The same for the Adler sums (R108 (c)). -/
theorem adlerFeed_append (p : Half × Half) (s u : List Byte) :
    adlerFeed p (s ++ u) = adlerFeed (adlerFeed p s) u := List.foldl_append

end Sys2Proof.Machine
end

