-- ==== Sys2Proof/Tests/Slice0.lean ====
section
/-!
SUPPORT. Small tests of the model, each about one word or one step, with results taken from
spec/95_test_vectors.md or worked out by hand from a rule, and for every statement of
Certificates/Slice0/Obligations.lean that has hypotheses a state and operands that meet them all.
-/

namespace Sys2Proof.Tests

open Sys2Proof Sys2Proof.Machine Host

/-- The state after reset of a block with a given `OUT_DEPTH`. -/
def fresh (depth : Nat) : State := { State.reset with outDepth := depth }

/-- The same with a frame open, `rem` bytes still expected, and `len` bytes waiting. -/
def framing (depth len : Nat) (rem : Half) : State :=
  { fresh depth with rem := rem, out := List.replicate len 0xEE }

/-- The same with a fault latched. -/
def faulted : State := { fresh 16 with flt := true, fcode := 3, finfo := 0x31000041 }

/-- Does the outcome give a next state with this property? -/
def gives (r : Result) (p : State → Bool) : Bool :=
  match r with
  | .next s => p s
  | .fault _ => false
  | .refused _ => false

/-- The state with one event pending. -/
def State.with (s : State) (e : HostEvent) : State := s.setPending [e]

/-! ### Well-formedness refuses what does not fit -/

theorem test_illFormed_operand_where_none : Source.wellFormed ⟨.crcInit, some 0⟩ = false := by
  decide
theorem test_illFormed_byte_missing : Source.wellFormed ⟨.crcUpd, none⟩ = false := by decide
theorem test_illFormed_byte_256 : Source.wellFormed ⟨.crcUpd, some 256⟩ = false := by decide
theorem test_illFormed_half_missing : Source.wellFormed ⟨.frmBegin, none⟩ = false := by decide
theorem test_illFormed_half_65536 : Source.wellFormed ⟨.frmBegin, some 65536⟩ = false := by decide
theorem test_wellFormed_limits :
    Source.wellFormed ⟨.sysNop, none⟩ = true ∧ Source.wellFormed ⟨.frmData, some 255⟩ = true ∧
    Source.wellFormed ⟨.frmBegin, some 65535⟩ = true := by decide

/-! ### Decoding: words written out from R61 and R63, opcode byte, zero bits, operand -/

theorem test_decode_sysNop :
    decode 0b00000001000000000000000000000000 = .command .sysNop := by decide
theorem test_decode_sysRst :
    decode 0b00000010000000000000000000000000 = .command .sysRst := by decide
theorem test_decode_sysStat :
    decode 0b00000011000000000000000000000000 = .command .sysStat := by decide
theorem test_decode_sysFinfo :
    decode 0b00000100000000000000000000000000 = .command .sysFinfo := by decide
theorem test_decode_crcTinit :
    decode 0b00010000000000000000000000000000 = .command .crcTinit := by decide
theorem test_decode_crcInit :
    decode 0b00010001000000000000000000000000 = .command .crcInit := by decide
theorem test_decode_crcUpd :
    decode 0b00010010000000000000000001001001 = .command (.crcUpd 0x49) := by decide
theorem test_decode_crcFin :
    decode 0b00010011000000000000000000000000 = .command .crcFin := by decide
theorem test_decode_crcRdt :
    decode 0b00010100000000000000000010000000 = .command (.crcRdt 0x80) := by decide
theorem test_decode_adlInit :
    decode 0b00100000000000000000000000000000 = .command .adlInit := by decide
theorem test_decode_adlUpd :
    decode 0b00100001000000000000000011111111 = .command (.adlUpd 0xFF) := by decide
theorem test_decode_adlFin :
    decode 0b00100010000000000000000000000000 = .command .adlFin := by decide
theorem test_decode_frmBegin :
    decode 0b00110000000000001111111100000001 = .command (.frmBegin 0xFF01) := by decide
theorem test_decode_frmData :
    decode 0b00110001000000000000000001000001 = .command (.frmData 0x41) := by decide
theorem test_decode_outPop :
    decode 0b00111000000000000000000000000000 = .command .outPop := by decide
theorem test_decode_outCnt :
    decode 0b00111001000000000000000000000000 = .command .outCnt := by decide

/-- 95 section 5: unassigned opcodes, all-zero and all-ones among them. -/
theorem test_decode_unassigned :
    decode 0x00000000 = .illegal .unassignedOpcode ∧
    decode 0xFFFFFFFF = .illegal .unassignedOpcode ∧
    decode 0xFF000000 = .illegal .unassignedOpcode ∧
    decode 0x05000000 = .illegal .unassignedOpcode ∧
    decode 0x15000000 = .illegal .unassignedOpcode ∧
    decode 0x23000000 = .illegal .unassignedOpcode ∧
    decode 0x32000000 = .illegal .unassignedOpcode ∧
    decode 0x3A000000 = .illegal .unassignedOpcode := by decide

/-- 95 section 5: a reserved bit of each format. -/
theorem test_decode_reserved :
    decode 0x11000001 = .illegal .reservedBits ∧
    decode 0x12000100 = .illegal .reservedBits ∧
    decode 0x14008000 = .illegal .reservedBits ∧
    decode 0x30010000 = .illegal .reservedBits ∧
    decode 0x38000001 = .illegal .reservedBits := by decide

/-- The words of R63 with the operand in place. -/
theorem test_encode_words :
    encode .outCnt = 0x39000000 ∧ encode (.crcUpd 0x49) = 0x12000049 ∧
    encode (.frmBegin 0xFFFF) = 0x3000FFFF := by decide

theorem test_decodeTableWord :
    decodeTableWord 32 0x31000041 = some (.frmData 0x41) ∧ decodeTableWord 32 0x31000141 = none := by
  decide

/-! ### The text of a command (R68) -/

/-- `CRC.UPD 'I' ; x` is the word of program P1, line 2. -/
theorem test_assembleLine_character :
    assembleLine ['C', 'R', 'C', '.', 'U', 'P', 'D', ' ', Char.ofNat 39, 'I', Char.ofNat 39, ' ',
      ';', ' ', 'x'] = some 0x12000049 := by decide

/-- `FRM.BEGIN 0x1F` and `FRM.BEGIN 70000`. -/
theorem test_assembleLine_numbers :
    assembleLine ['F', 'R', 'M', '.', 'B', 'E', 'G', 'I', 'N', ' ', '0', 'x', '1', 'F'] =
      some 0x3000001F ∧
    assembleLine ['F', 'R', 'M', '.', 'B', 'E', 'G', 'I', 'N', ' ', '7', '0', '0', '0', '0'] =
      none := by decide

/-! ### One step of each command -/

/-- V-X6. -/
theorem test_sysNop : gives (exec .sysNop (fresh 16)) (fun s => s.status == 0) = true := by decide
/-- P4, line 6. -/
theorem test_sysRst_clears_fault :
    gives (exec .sysRst faulted) (fun s => !s.flt && s.finfo == 0 && s.status == 0) = true := by
  decide
/-- R136: the queue and an open frame are discarded. -/
theorem test_sysRst_discards_frame :
    gives (exec .sysRst (framing 16 8 3)) (fun s => s.out == [] && s.rem == 0) = true := by decide
/-- P4, line 4. -/
theorem test_sysStat_faulted :
    gives (exec .sysStat faulted) (fun s => s.responses == [0x00000034]) = true := by decide
/-- P3, line 6: one byte to go. -/
theorem test_sysStat_frame_open :
    gives (exec .sysStat (framing 32 11 1)) (fun s => s.responses == [0x0001000A]) = true := by
  decide
/-- P4, line 5. -/
theorem test_sysFinfo :
    gives (exec .sysFinfo faulted) (fun s => s.responses == [0x31000041]) = true := by decide
/-- R85: `STATUS` is 1 afterwards. -/
theorem test_crcTinit :
    gives (exec .crcTinit (fresh 16)) (fun s => s.status == 1 && tableEntry s.t 1 == 0x77073096) =
      true := by decide
/-- R86. -/
theorem test_crcInit :
    gives (exec .crcInit { fresh 16 with crc := 5 }) (fun s => s.crc == 0xFFFFFFFF && !s.tv) =
      true := by decide
/-- R87, the example. -/
theorem test_crcUpd :
    gives (exec (.crcUpd 0x49) (fresh 16)) (fun s => s.crc == 0x22FDE946 && s.tv) = true := by
  decide
/-- 95 section 2.3: a register with bit 31 clear and a high index. -/
theorem test_crcUpd_zero_register :
    gives (exec (.crcUpd 0x80) { fresh 16 with crc := 0 }) (fun s => s.crc == 0xEDB88320) =
      true := by decide
/-- P1, line 6. -/
theorem test_crcFin :
    gives (exec .crcFin { fresh 16 with crc := 0x51BD9F7D })
      (fun s => s.responses == [0xAE426082] && s.crc == 0x51BD9F7D) = true := by decide
/-- R89, the example; V-C4: CRC is not touched. -/
theorem test_crcRdt :
    gives (exec (.crcRdt 0x80) (fresh 16))
      (fun s => s.responses == [0xEDB88320] && s.tv && s.crc == 0xFFFFFFFF) = true := by decide
/-- R103; the framer's sums are not touched. -/
theorem test_adlInit :
    gives (exec .adlInit { fresh 16 with a := 7, b := 9, fa := 3, fb := 4 })
      (fun s => s.a == 1 && s.b == 0 && s.fa == 3 && s.fb == 4) = true := by decide
/-- R104, the example. -/
theorem test_adlUpd :
    gives (exec (.adlUpd 0xFF) { fresh 16 with b := 1 }) (fun s => s.a == 0x100 && s.b == 0x101) =
      true := by decide
/-- 95 section 3: both reductions at their top. -/
theorem test_adlUpd_wraps :
    gives (exec (.adlUpd 0xFF) { fresh 16 with a := 65520, b := 65520 })
      (fun s => s.a == 254 && s.b == 253) = true := by decide
/-- P2, line 7. -/
theorem test_adlFin :
    gives (exec .adlFin { fresh 16 with a := 0x01FF, b := 0x0500 })
      (fun s => s.responses == [0x050001FF]) = true := by decide
/-- R122, the example. -/
theorem test_frmBegin :
    gives (exec (.frmBegin 5) (fresh 16))
      (fun s => s.out == [0x78, 0x01, 0x01, 0x05, 0x00, 0xFA, 0xFF] && s.rem == 5) = true := by
  decide
/-- V-F1: an empty payload. -/
theorem test_frmBegin_empty :
    gives (exec (.frmBegin 0) (fresh 11))
      (fun s => s.out == [0x78, 0x01, 0x01, 0x00, 0x00, 0xFF, 0xFF, 0x00, 0x00, 0x00, 0x01] &&
        s.rem == 0) = true := by decide
/-- V-F2: the last byte emits the trailer. -/
theorem test_frmData_last :
    gives (exec (.frmData 0xFF) { fresh 16 with rem := 1 })
      (fun s => s.out == [0xFF, 0x01, 0x00, 0x01, 0x00] && s.rem == 0 && s.fa == 0x100) = true := by
  decide
/-- V-F12: the sequence is tested before the room. -/
theorem test_frmData_closed_and_full :
    gives (exec (.frmData 0x00) (framing 16 16 0))
      (fun s => s.flt && s.fcode == 3 && s.finfo == 0x31000000) = true := by decide
/-- R139, the example. -/
theorem test_outPop :
    gives (exec .outPop { fresh 16 with out := [0x78, 0x01] })
      (fun s => s.responses == [0x00000178] && s.out == [0x01]) = true := by decide
/-- R139: an empty queue is told from a zero byte. -/
theorem test_outPop_empty :
    gives (exec .outPop (fresh 16)) (fun s => s.responses == [0x00000000] && !s.flt) = true := by
  decide
/-- R140, the example's count. -/
theorem test_outCnt :
    gives (exec .outCnt (framing 16 16 0)) (fun s => s.responses == [0x00000010]) = true := by decide

/-! ### The step -/

/-- V-X3: `02000001` while faulted is dropped and does not reset. -/
theorem test_step_drops_almost_reset :
    gives (step (faulted.send 0x02000001)) (fun s => s.flt && s.finfo == 0x31000041) = true := by
  decide
/-- V-C7: byte 256 cannot be encoded. -/
theorem test_step_illegal_word :
    gives (step ((fresh 16).send 0x12000100))
      (fun s => s.flt && s.fcode == 1 && s.finfo == 0x12000100 && !s.tv) = true := by decide
/-- R195: the hardware reset event. -/
theorem test_step_hardware_reset :
    gives (step (State.with faulted .reset)) (fun s => s.status == 0 && s.pending == []) = true := by
  decide
/-- The host's word is the next command; it also runs from the reset state, whatever its depth. -/
theorem test_withFetchWord :
    gives (step (State.reset.withFetchWord 32 0x30000000)) (fun s => s.out.length == 11) = true := by
  decide

/-! ### The algorithms: check values of 95 sections 2.2, 3 and 4 -/

/-- R82, the four steps over the bytes `IEND`; the registers between are those of another
implementation of CRC-32. -/
theorem test_crcStep_iend :
    crcStep 0xFFFFFFFF 0x49 = 0x22FDE946 ∧ crcStep 0x22FDE946 0x45 = 0x992BAC53 ∧
    crcStep 0x992BAC53 0x4E = 0x639F4775 ∧ crcStep 0x639F4775 0x44 = 0x51BD9F7D :=
  ⟨rfl, rfl, rfl, rfl⟩
theorem test_crc32_iend : crc32 [0x49, 0x45, 0x4E, 0x44] = 0xAE426082 := by
  have ⟨h1, h2, h3, h4⟩ := test_crcStep_iend
  simp only [crc32, crcFeed, crcInitial, List.foldl, h1, h2, h3, h4]
  rfl
theorem test_adler32_payload : adler32 [0x00, 0xFF, 0x00, 0x00, 0xFF] = 0x050001FF := by decide
theorem test_zstore_ab :
    zstore [0x61, 0x62] =
      [0x78, 0x01, 0x01, 0x02, 0x00, 0xFD, 0xFF, 0x61, 0x62, 0x01, 0x26, 0x00, 0xC4] := by decide
/-- 44 R158: the terminator chunk. -/
theorem test_hpChunk_end :
    hpChunk tagEnd [] = [0x00, 0x00, 0x00, 0x00, 0x49, 0x45, 0x4E, 0x44, 0xAE, 0x42, 0x60, 0x82] := by
  have h : crc32 (tagEnd ++ []) = 0xAE426082 := test_crc32_iend
  rw [hpChunk, h]
  rfl

/-! ### Hypotheses that can be met, one theorem per statement -/

theorem met_StepRunsDecodedCommand :
    (State.with (fresh 16) (.command 0x12000049)).pending = [.command 0x12000049] ∧
    decode 0x12000049 = .command (.crcUpd 0x49) ∧ (Instr.crcUpd 0x49).wellFormed = true := by decide

/-- Both clauses: a word, with and without a fault, and the reset event. -/
theorem met_StepFollowsTheOneFunction :
    (State.with (fresh 16) (.command 0x00000000)).pending = [.command 0x00000000] ∧
    (State.with faulted (.command 0x13000000)).pending = [.command 0x13000000] ∧
    (State.with faulted .reset).pending = [.reset] := by decide

theorem met_IdleBlockHoldsItsState : (fresh 16).pending = [] := by decide

theorem met_BothResetsAreTheSame : (State.with faulted .reset).pending = [.reset] := by decide

theorem met_ResetValuesAndStatus :
    (State.with faulted .reset).pending = [.reset] ∧ State.reset.AtReset := by decide

/-- A word that matches a row, at its operand's limits; one that matches none. -/
theorem met_DecodeFollowsTheOpcodeTable :
    (0x3000FFFF#32 &&& rowMask .frmBegin = rowMatch .frmBegin) ∧
    (0x30000000#32 &&& rowMask .frmBegin = rowMatch .frmBegin) ∧
    (0x30010000#32 &&& rowMask .frmBegin ≠ rowMatch .frmBegin) := by decide

/-- The step clause, not faulted and faulted. -/
theorem met_IllegalInExactlyTwoCases :
    ((State.with (fresh 16) (.command 0x12000100)).pending = [.command 0x12000100] ∧
      decode 0x12000100 = .illegal .reservedBits ∧ (fresh 16).flt = false) ∧
    ((State.with faulted (.command 0x00000000)).pending = [.command 0x00000000] ∧
      decode 0x00000000 = .illegal .unassignedOpcode ∧ faulted.flt = true) := by decide

theorem met_EncodeThenDecode :
    (Instr.frmBegin 0xFFFF).wellFormed = true ∧ Instr.sysNop.wellFormed = true := by decide

theorem met_DecodeThenEncode : decode 0x3000FFFF = .command (.frmBegin 0xFFFF) := by decide

theorem met_AssemblesExactlyWhatFits :
    assemble ⟨.crcUpd, some 255⟩ = some (.crcUpd 0xFF) ∧ assemble ⟨.crcUpd, some 256⟩ = none := by
  decide

/-- Not faulted and faulted: the two cases of every command but the three of R178. -/
theorem met_flt : (fresh 16).flt = false ∧ faulted.flt = true := by decide

theorem met_SysRstResetsEverything :
    (State.with faulted (.command 0x02000001)).pending = [.command 0x02000001] ∧
    (State.with faulted (.command 0x02000001)).flt = true ∧
    (State.with faulted .reset).pending = [.reset] ∧
    gives (exec .sysRst faulted) (fun t => !t.flt) = true := by decide

theorem met_SysFinfoReadsTheFaultingWord :
    (fresh 16).RecordLegal ∧ (fresh 16).flt = false ∧
    ((fresh 16).send 0x00000000).pending = [.command 0x00000000] ∧
    ((fresh 16).send 0x00000000).flt = false := by decide

/-- A valid table, and none. -/
theorem met_tableValid :
    ({ fresh 16 with t := crcTable, tv := true } : State).TableValid ∧
    ({ fresh 16 with t := crcTable, tv := true } : State).flt = false ∧
    (fresh 16).TableValid ∧ (fresh 16).flt = false :=
  ⟨fun _ => rfl, rfl, fun h => Bool.noConfusion h, rfl⟩

theorem met_CrcTinitBuildsTheTable :
    ({ fresh 16 with t := crcTable, tv := true } : State).TableValid ∧
    ({ fresh 16 with t := crcTable, tv := true } : State).tv = true ∧
    (fresh 16).flt = false ∧ faulted.flt = true := ⟨fun _ => rfl, rfl, rfl, rfl⟩

theorem met_CrcInitStartsAChecksum : (fresh 16).flt = false ∧ faulted.flt = true := met_flt
theorem met_CrcUpdFeedsOneByte :
    (fresh 16).TableValid ∧ (fresh 16).flt = false ∧ faulted.flt = true :=
  ⟨fun h => Bool.noConfusion h, rfl, rfl⟩
theorem met_CrcFinReadsTheChecksum : (fresh 16).flt = false ∧ faulted.flt = true := met_flt
theorem met_CrcRdtReadsATableEntry :
    (fresh 16).TableValid ∧ (fresh 16).flt = false ∧ faulted.flt = true :=
  ⟨fun h => Bool.noConfusion h, rfl, rfl⟩
theorem met_AdlInitStartsAChecksum : (fresh 16).flt = false ∧ faulted.flt = true := met_flt
theorem met_AdlUpdFeedsOneByte : (fresh 16).flt = false ∧ faulted.flt = true := met_flt
theorem met_AdlFinReadsTheChecksum : (fresh 16).flt = false ∧ faulted.flt = true := met_flt

/-- Each branch of the frame's opening at its limit: a frame open; 10 free and 11 free for an empty
payload; 6 free and 7 free for another. -/
theorem met_FrmBeginOpensAFrame :
    (framing 16 7 1).rem ≠ 0 ∧ (framing 16 6 0).outFree = 10 ∧ (framing 16 5 0).outFree = 11 ∧
    (framing 16 10 0).outFree = 6 ∧ (framing 16 9 0).outFree = 7 ∧ (framing 16 9 0).rem = 0 ∧
    (framing 16 9 0).flt = false ∧ faulted.flt = true := by decide

/-- Each clause at its limit: no frame open; the last byte with 4 and with 5 free; another byte with 0
and with 1 free. -/
theorem met_FrmDataSuppliesAByte :
    (framing 16 16 0).rem = 0 ∧ (framing 16 12 1).outFree = 4 ∧ (framing 16 11 1).outFree = 5 ∧
    (framing 16 16 2).outFree = 0 ∧ (framing 16 15 2).outFree = 1 ∧ (framing 16 15 2).rem ≠ 0 ∧
    (framing 16 15 2).flt = false ∧ faulted.flt = true := by decide

/-- A queue of one byte, and an empty one. -/
theorem met_OutPopTakesTheHead :
    (framing 16 1 0).out = 0xEE :: [] ∧ (framing 16 1 0).flt = false ∧ (fresh 16).out = [] ∧
    (fresh 16).flt = false ∧ faulted.flt = true := by decide

/-- An empty and a full queue. -/
theorem met_OutCntCountsTheQueue :
    ((fresh 11).QueueBounded ∧ (fresh 11).DepthLegal ∧ (fresh 11).flt = false) ∧
    ((framing 16 16 0).QueueBounded ∧ (framing 16 16 0).DepthLegal ∧ (framing 16 16 0).flt = false) ∧
    faulted.flt = true := by decide

/-- A fault, and no fault over a legal record. -/
theorem met_FaultCodesHaveTheirCauses :
    ((fresh 16).send 0x31000041).pending = [.command 0x31000041] ∧
    ((fresh 16).send 0x31000041).flt = false ∧
    gives (step ((fresh 16).send 0x31000041)) (fun t => t.flt && t.fcode == 3) = true ∧
    ((fresh 16).send 0x30000000).RecordLegal ∧
    gives (step ((fresh 16).send 0x30000000)) (fun t => !t.flt) = true := by decide

theorem met_FaultsArePrecise :
    ((framing 16 16 0).send 0x30000000).pending = [.command 0x30000000] ∧
    ((framing 16 16 0).send 0x30000000).flt = false ∧
    gives (step ((framing 16 16 0).send 0x30000000)) (fun t => t.flt && t.fcode == 4) = true := by
  decide

/-- One of the three words, and another. -/
theorem met_FaultedBlockDropsAllButThree :
    ((faulted.send 0x02000000).pending = [.command 0x02000000] ∧ faulted.flt = true) ∧
    ((faulted.send 0x03000001).pending = [.command 0x03000001] ∧ faulted.flt = true) := by decide

theorem met_OnlyResetEndsAFault :
    faulted.flt = true ∧ gives (step (faulted.send 0x02000000)) (fun t => !t.flt) = true ∧
    gives (step (faulted.send 0x31000041)) (fun t => t.flt) = true := by decide

theorem met_ResponsesAreOneOrNone :
    (Instr.outPop.responds = true ∧ (fresh 16).flt = false) ∧
    (Instr.sysStat.responds = true ∧ Instr.sysStat.runsFaulted = true) ∧
    ((faulted.send 0x00000000).pending = [.command 0x00000000] ∧
      decode 0x00000000 = .illegal .unassignedOpcode) := by decide

theorem met_AdlerUnitStandsAlone :
    (Instr.crcUpd 1).ofCrcUnit = true ∧ (Instr.frmData 1).ofFramer = true ∧
    Instr.outPop.ofQueue = true ∧ (Instr.adlUpd 1).ofAdlerUnit = true := by decide

theorem met_CrcUnitStandsAlone :
    (Instr.adlUpd 1).ofAdlerUnit = true ∧ (Instr.frmData 1).ofFramer = true ∧
    Instr.outPop.ofQueue = true ∧ (Instr.crcUpd 1).ofCrcUnit = true := by decide

/-- The last clause with the least room for the last byte, and with one byte less: it completes, and
it faults. -/
theorem met_FramerStandsAlone :
    (Instr.crcUpd 1).ofCrcUnit = true ∧ (Instr.adlUpd 1).ofAdlerUnit = true ∧
    Instr.outPop.ofQueue = true ∧ (Instr.frmData 1).ofFramer = true ∧
    gives (exec (.frmData 1) (framing 16 11 1)) (fun t => !t.flt && t.out.length == 16) = true ∧
    gives (exec (.frmData 1) (framing 16 12 1)) (fun t => t.flt && t.fcode == 4) = true := by decide

theorem met_QueueIsFirstInFirstOut : Instr.outPop ≠ .sysRst ∧ Instr.frmBegin 0 ≠ .sysRst := by
  decide

theorem met_StepKeepsInvariant :
    (fresh 16).Inv ∧ gives (step (fresh 16)) (fun t => t.pending == []) = true :=
  ⟨⟨by decide, by decide, by decide, fun h => Bool.noConfusion h, by decide⟩, by decide⟩

theorem met_CrcStreamReturnsTheChecksum :
    ((fresh 16).setPending (asEvents (hpCrc32 [0x49]))).flt = false ∧
    ((fresh 16).setPending (asEvents (hpCrc32 [0x49]))).TableValid ∧
    ((fresh 16).setPending (asEvents (hpCrc32 [0x49]))).pending = asEvents (hpCrc32 [0x49]) ++ [] :=
  ⟨rfl, fun h => Bool.noConfusion h, rfl⟩

theorem met_AdlerStreamReturnsTheChecksum :
    ((fresh 16).setPending (asEvents (hpAdler32 [0x49]))).flt = false ∧
    ((fresh 16).setPending (asEvents (hpAdler32 [0x49]))).pending =
      asEvents (hpAdler32 [0x49]) ++ [] := ⟨rfl, rfl⟩

/-- After CRC.INIT and after SYS.RST. -/
theorem met_CrcFinCoversAllBytesSinceInit :
    (fresh 16).TableValid ∧ Instr.crcInit ∉ [Instr.frmBegin 0, .crcUpd 0x49] ∧
    Instr.sysRst ∉ [Instr.frmBegin 0, .crcUpd 0x49] ∧
    gives (runCommands (.crcInit :: [Instr.frmBegin 0, .crcUpd 0x49]) (fresh 16))
      (fun t => !t.flt) = true ∧
    gives (runCommands (.sysRst :: [Instr.frmBegin 0, .crcUpd 0x49]) (fresh 16))
      (fun t => !t.flt) = true :=
  ⟨fun h => Bool.noConfusion h, by decide, by decide, rfl, rfl⟩

/-- After ADL.INIT and after SYS.RST. -/
theorem met_AdlFinCoversAllBytesSinceInit :
    Instr.adlInit ∉ [Instr.frmBegin 0, .adlUpd 1] ∧ Instr.sysRst ∉ [Instr.frmBegin 0, .adlUpd 1] ∧
    gives (runCommands (.adlInit :: [Instr.frmBegin 0, .adlUpd 1]) (fresh 16))
      (fun t => !t.flt) = true ∧
    gives (runCommands (.sysRst :: [Instr.frmBegin 0, .adlUpd 1]) (fresh 16))
      (fun t => !t.flt) = true := by decide

/-- The two clauses: room from the start, and a run that ends without a fault. -/
theorem met_FrameIsZstoreOfItsPayload :
    (fresh 13).flt = false ∧ (fresh 13).rem = 0 ∧
    (∀ i ∈ [Instr.frmData 1, .outPop, .frmData 2], i.keepsFrame = true) ∧
    (payloadOf [Instr.frmData 1, .outPop, .frmData 2]).length = (2 : Half).toNat ∧
    (2 : Half).toNat + 11 ≤ (fresh 13).outDepth - (fresh 13).out.length ∧
    gives (runCommands (.frmBegin 2 :: [Instr.frmData 1, .outPop, .frmData 2]) (fresh 13))
      (fun t => !t.flt) = true := by decide

/-- The two clauses: room from the start, and a run that ends without a fault. -/
theorem met_OpenFrameSumsFollowThePayload :
    (fresh 11).flt = false ∧ (fresh 11).rem = 0 ∧
    (∀ i ∈ [Instr.frmData 1, .outPop], i.keepsFrame = true) ∧
    (payloadOf [Instr.frmData 1, .outPop]).length < (2 : Half).toNat ∧
    (payloadOf [Instr.frmData 1, .outPop]).length + 7 ≤
      (fresh 11).outDepth - (fresh 11).out.length ∧
    gives (runCommands (.frmBegin 2 :: [Instr.frmData 1, .outPop]) (fresh 11))
      (fun t => !t.flt) = true := by decide

theorem met_ZstoreIsReadBackByPops :
    (fresh 13).Delivered ∧ [(0x61 : Byte), 0x62].length ≤ 65535 ∧
    [(0x61 : Byte), 0x62].length + 11 ≤ (fresh 13).outDepth := by decide

theorem met_ZstoreLayout : [(0x61 : Byte)].length ≤ 65535 ∧ 0 < [(0x61 : Byte)].length ∧ 3 < 4 := by
  decide

theorem met_OneSubtractionReducesASum :
    (65520 : Half).toNat < 65521 ∧ (0 : Half).toNat < 65521 := by decide

theorem met_InvalidTableIsUnobservable :
    ({ fresh 16 with t := tableOf fun _ => 0 } : State).observable =
      ({ fresh 16 with t := tableOf fun _ => 1 } : State).observable := rfl

/-- A faulted block and one with a frame open, reset and then sent the same word. -/
theorem met_AfterResetOnlyTheWordsMatter :
    (faulted.setPending [.reset, .command 0x13000000]).pending =
      .reset :: [.command 0x13000000] ∧
    ((framing 16 7 5).setPending [.reset, .command 0x13000000]).pending =
      .reset :: [.command 0x13000000] ∧
    faulted.outDepth = (framing 16 7 5).outDepth := by decide

theorem met_EagerAndLazyTablesAgree :
    (fresh 16).TableValid ∧ Instr.crcRdt 0x80 ≠ .sysStat :=
  ⟨fun h => Bool.noConfusion h, by decide⟩

/-- R84: the status before and after the table is built early. -/
theorem test_sysStat_eager :
    gives (exec .sysStat (framing 16 7 5)) (fun t => t.responses == [0x0005000A]) = true ∧
    gives (exec .sysStat (framing 16 7 5).tblInit) (fun t => t.responses == [0x0005000B]) = true :=
  ⟨rfl, rfl⟩

theorem met_ImagesDifferInTwelveBytes : (48 < 49 ∨ 60 < 48) ∧ (61 < 49 ∨ 60 < 61) := by decide

/-- A legal record without a fault; the all-zero word; and FRM.DATA with no frame open, then an illegal word and CRC.INIT,
both dropped. -/
theorem met_FinfoNamesTheWordThatFaulted :
    ((fresh 16).RecordLegal ∧ (fresh 16).flt = false) ∧
    (((fresh 16).send 0x00000000).pending = [.command 0x00000000] ∧
      ((fresh 16).send 0x00000000).flt = false) ∧
    (match step ((fresh 16).setPending
        [.command 0x31000041, .command 0x00000000, .command 0x11000000]) with
      | .next t => t.flt && gives (core.run 2 t) (fun u => u.flt && u.pending == [])
      | .fault _ => false
      | .refused _ => false) = true ∧
    HostEvent.reset ∉ List.take 2 [.command 0x00000000, .command 0x11000000] ∧
    HostEvent.command 0x02000000 ∉ List.take 2 [.command 0x00000000, .command 0x11000000] := by
  decide

end Sys2Proof.Tests
end

section
/-!
The step on each kind of host event (spec 00_scope R9): a word is taken from the pending events and
executed, a reset is taken and resets the block.
-/

namespace Sys2Proof.Machine

/-- With no event pending the block is idle (R189). -/
theorem step_idle {s : State} (hp : s.pending = []) : step s = .next s := by
  unfold step takeEvent
  rw [hp]

/-- A pending word is taken and executed on the state without it. -/
theorem step_command {s : State} {w : Word} {rest : List HostEvent}
    (hp : s.pending = .command w :: rest) : step s = execWord w (s.setPending rest) := by
  unfold step takeEvent
  rw [hp]

/-- A pending reset is taken and resets the block. -/
theorem step_reset {s : State} {rest : List HostEvent} (hp : s.pending = .reset :: rest) :
    step s = .next (s.setPending rest).resetBlock := by
  unfold step takeEvent
  rw [hp]

theorem execWord_command {w : Word} {i : Instr} (hd : decode w = .command i) (s : State) :
    execWord w s = exec i s := by
  unfold execWord
  rw [hd]

theorem execWord_illegal {w : Word} {r : Illegal} (hd : decode w = .illegal r) (s : State) :
    execWord w s = illegalCommand w s := by
  unfold execWord
  rw [hd]

/-- While faulted, every command but the three of R178 is dropped. -/
theorem exec_faulted {s : State} (hf : s.flt = true) {i : Instr} (hi : i.runsFaulted = false) :
    exec i s = .next s := by
  cases i with
  | sysRst | sysStat | sysFinfo => exact Bool.noConfusion hi
  | _ => exact unlessFaulted_faulted hf _

/-- While faulted, an illegal word is dropped. -/
theorem illegalCommand_faulted {s : State} (hf : s.flt = true) (w : Word) :
    illegalCommand w s = .next s := unlessFaulted_faulted hf _

/-- While not faulted, an illegal word is recorded with fault code 1. -/
theorem illegalCommand_ready {s : State} (hf : s.flt = false) (w : Word) :
    illegalCommand w s = .next { s with flt := true, fcode := 1, finfo := w } :=
  unlessFaulted_ready hf _

/-- Settles O1: taking the word, then running what it decodes to, is the whole step. -/
theorem stepRunsDecodedCommand : Obligations.StepRunsDecodedCommand := by
  intro s w rest i hp hd _
  exact (step_command hp).trans (execWord_command hd _)

/-- Settles O2: R9's case distinction on FLT and on the decoded word, and the reset event. -/
theorem stepFollowsTheOneFunction : Obligations.StepFollowsTheOneFunction := by
  refine ⟨fun s w rest hp => ?_, fun s rest hp =>
    ⟨_, step_reset hp, resetBlock_atReset _, resetBlock_samePort _⟩⟩
  rw [step_command hp]
  by_cases hf : s.flt = true
  · have faulted : (s.setPending rest).flt = true := hf
    rw [if_pos hf]
    cases hd : decode w with
    | illegal r => exact (execWord_illegal hd _).trans (illegalCommand_faulted faulted w)
    | command i =>
      rw [execWord_command hd]
      cases i with
      | sysRst | sysStat | sysFinfo => rfl
      | _ => exact exec_faulted faulted (by rfl)
  · have ready : (s.setPending rest).flt = false := Bool.eq_false_of_not_eq_true hf
    rw [if_neg hf]
    cases hd : decode w with
    | illegal r => exact (execWord_illegal hd _).trans (illegalCommand_ready ready w)
    | command i => exact execWord_command hd _

end Sys2Proof.Machine
end

section
/-!
Determinism of the block since its last reset (spec 00_scope R5). Two states are `Alike` when they
differ at most in the contents of a table that is not valid, in the count of free tables and in the
responses already returned. From alike states every step returns the same responses and ends in alike
states; a reset makes any two states alike that have the same `OUT_DEPTH` and the same events to come.
-/

namespace Sys2Proof.Machine

/-! ### Alike states -/

/-- The two states agree in all that the block's future behaviour can depend on. -/
structure State.Alike (s u : State) : Prop where
  t : s.tv = true → s.t = u.t
  tv : s.tv = u.tv
  crc : s.crc = u.crc
  a : s.a = u.a
  b : s.b = u.b
  fa : s.fa = u.fa
  fb : s.fb = u.fb
  rem : s.rem = u.rem
  out : s.out = u.out
  flt : s.flt = u.flt
  fcode : s.fcode = u.fcode
  finfo : s.finfo = u.finfo
  outDepth : s.outDepth = u.outDepth
  pending : s.pending = u.pending

/-- To be alike is to be the same to an observer, but for the responses already returned. -/
theorem State.alike_iff (s u : State) :
    s.Alike u ↔ { s.observable with responses := [] } = { u.observable with responses := [] } := by
  constructor
  · intro h
    have table : (if s.tv then s.t else crcTable) = if u.tv then u.t else crcTable := by
      rw [← h.tv]
      split
      · exact h.t ‹_›
      · rfl
    simp only [State.observable, State.mk.injEq]
    exact ⟨table, h.tv, h.crc, h.a, h.b, h.fa, h.fb, h.rem, h.out, h.flt, h.fcode, h.finfo,
      h.outDepth, trivial, h.pending, trivial⟩
  · intro h
    simp only [State.observable, State.mk.injEq] at h
    obtain ⟨table, tv, crc, a, b, fa, fb, rem, out, flt, fcode, finfo, outDepth, -, pending, -⟩ := h
    refine ⟨fun hv => ?_, tv, crc, a, b, fa, fb, rem, out, flt, fcode, finfo, outDepth, pending⟩
    rwa [← tv, if_pos hv, if_pos hv] at table

/-- Reset forgets everything but the parameter and the events to come (R34). -/
theorem State.alike_resetBlock {s u : State} (hd : s.outDepth = u.outDepth)
    (hp : s.pending = u.pending) : s.resetBlock.Alike u.resetBlock :=
  ⟨fun h => Bool.noConfusion h, rfl, rfl, rfl, rfl, rfl, rfl, rfl, rfl, rfl, rfl, rfl, hd, hp⟩

namespace State.Alike

variable {s u : State} (h : s.Alike u)
include h

theorem setCrc (v : Word) : (s.setCrc v).Alike (u.setCrc v) := { h with crc := rfl }

theorem setSums (p : Half × Half) : (s.setSums p).Alike (u.setSums p) :=
  { h with a := rfl, b := rfl }

theorem outDrop : s.outDrop.Alike u.outDrop := { h with out := congrArg (List.drop 1) h.out }

theorem respond (v : Word) : (s.respond v).Alike (u.respond v) := { h with }

theorem setPending (p : List HostEvent) : (s.setPending p).Alike (u.setPending p) :=
  { h with pending := rfl }

theorem latch (c : Cause) (w : Word) : (s.latch c w).Alike (u.latch c w) :=
  { h with flt := rfl, fcode := rfl, finfo := rfl }

theorem tblInit : s.tblInit.Alike u.tblInit := { h with t := fun _ => rfl, tv := rfl }

/-- Made ready, both tables are valid, so they are the same table. -/
theorem tblReady : s.tblReady.Alike u.tblReady := by
  unfold State.tblReady
  rw [← h.tv]
  split
  · exact h
  · exact h.tblInit

theorem openFrame (n : Half) : (openFrame n s).Alike (openFrame n u) := by
  rw [openFrame_eq, openFrame_eq]
  exact { h with out := congrArg (· ++ beginBytes n) h.out, fa := rfl, fb := rfl, rem := rfl }

theorem acceptByte (x : Byte) : (acceptByte x s).Alike (acceptByte x u) := by
  rw [acceptByte_eq, acceptByte_eq, ← h.fa, ← h.fb, ← h.rem, ← h.out]
  exact { h with out := rfl, fa := rfl, fb := rfl, rem := rfl }

/-- Whatever table is not valid is built before an entry is read (R84). -/
theorem tblRead_eq (i : Byte) : s.tblRead i = u.tblRead i :=
  congrArg (tableEntry · i) (h.tblReady.t (tblReady_tv s))

theorem outFree_eq : s.outFree = u.outFree := by
  unfold State.outFree
  rw [h.outDepth, h.out]

theorem status_eq : s.status = u.status := by
  unfold State.status State.one State.fbsy
  rw [h.rem, h.fcode, h.out, h.flt, h.tv]

end State.Alike

/-! ### What leaves the responses alone -/

@[simp] theorem tblReady_responses (s : State) : s.tblReady.responses = s.responses := by
  obtain ⟨t, tv, e⟩ := tblReady_frame s
  rw [e]

@[simp] theorem acceptByte_responses (x : Byte) (s : State) :
    (acceptByte x s).responses = s.responses := by rw [acceptByte_eq]

/-! ### Outcomes that agree -/

/-- From `s` and from `u` the two outcomes complete in alike states, having returned the same
responses. -/
def Agree (s u : State) (x y : Result) : Prop :=
  ∃ (t v : State) (rs : List Word), x = .next t ∧ y = .next v ∧
    t.responses = s.responses ++ rs ∧ v.responses = u.responses ++ rs ∧ t.Alike v

section
variable {s u t v : State} {x y x' y' : Result}

/-- No response on either side. -/
theorem agree_next (h : t.Alike v) (ht : t.responses = s.responses)
    (hv : v.responses = u.responses) : Agree s u (.next t) (.next v) :=
  ⟨t, v, [], rfl, rfl, by simpa, by simpa, h⟩

/-- The same response on both sides. -/
theorem agree_respond {w w' : Word} (h : t.Alike v) (hw : w = w')
    (ht : t.responses = s.responses) (hv : v.responses = u.responses) :
    Agree s u (.next (t.respond w)) (.next (v.respond w')) := by
  subst hw
  exact ⟨_, _, [w], rfl, rfl, by simp [ht], by simp [hv], h.respond w⟩

theorem agree_raiseFault (h : s.Alike u) (c : Cause) (w : Word) :
    Agree s u (raiseFault c w s) (raiseFault c w u) := agree_next (h.latch c w) rfl rfl

theorem agree_ite {c d : Prop} [Decidable c] [Decidable d] (hcd : c ↔ d) (hx : Agree s u x x')
    (hy : Agree s u y y') : Agree s u (if c then x else y) (if d then x' else y') := by
  by_cases hc : c
  · rwa [if_pos hc, if_pos (hcd.mp hc)]
  · rwa [if_neg hc, if_neg (hc ∘ hcd.mpr)]

theorem agree_unlessFaulted (h : s.Alike u) (hx : Agree s u x x') :
    Agree s u (unlessFaulted s x) (unlessFaulted u x') :=
  agree_ite (by rw [h.flt]) (agree_next h rfl rfl) hx

/-- Outcomes that agree after equal responses `rs` agree as a whole. -/
theorem agree_after {rs : List Word} (ht : t.responses = s.responses ++ rs)
    (hv : v.responses = u.responses ++ rs) (h : Agree t v x y) : Agree s u x y := by
  obtain ⟨t', v', rs', ex, ey, ht', hv', h'⟩ := h
  exact ⟨t', v', rs ++ rs', ex, ey, by rw [ht', ht, List.append_assoc],
    by rw [hv', hv, List.append_assoc], h'⟩

end

/-! ### Commands, steps and runs from alike states -/

section
variable {s u : State} (h : s.Alike u)
include h

theorem agree_execFrmBegin (n : Half) : Agree s u (execFrmBegin n s) (execFrmBegin n u) :=
  agree_unlessFaulted h <|
    agree_ite (by rw [h.rem]) (agree_raiseFault h _ _) <|
    agree_ite (by rw [h.outFree_eq]) (agree_raiseFault h _ _) <|
    agree_next (h.openFrame n) rfl rfl

theorem agree_execFrmData (x : Byte) : Agree s u (execFrmData x s) (execFrmData x u) :=
  agree_unlessFaulted h <|
    agree_ite (by rw [h.rem]) (agree_raiseFault h _ _) <|
    agree_ite (by rw [h.outFree_eq, h.rem]) (agree_raiseFault h _ _) <|
    agree_next (h.acceptByte x) (acceptByte_responses x s) (acceptByte_responses x u)

/-- CRC.UPD: the index, the entry and the shifted register are the same on both sides. -/
theorem agree_execCrcUpd (b : Byte) : Agree s u (execCrcUpd b s) (execCrcUpd b u) := by
  apply agree_unlessFaulted h
  rw [h.tblRead_eq, h.crc]
  exact agree_next (h.tblReady.setCrc _) (tblReady_responses s) (tblReady_responses u)

theorem agree_exec (i : Instr) : Agree s u (exec i s) (exec i u) := by
  cases i with
  | sysNop => exact agree_unlessFaulted h (agree_next h rfl rfl)
  | sysRst => exact agree_next (State.alike_resetBlock h.outDepth h.pending) rfl rfl
  | sysStat => exact agree_respond h h.status_eq rfl rfl
  | sysFinfo => exact agree_respond h h.finfo rfl rfl
  | crcTinit => exact agree_unlessFaulted h (agree_next h.tblInit rfl rfl)
  | crcInit => exact agree_unlessFaulted h (agree_next (h.setCrc _) rfl rfl)
  | crcUpd b => exact agree_execCrcUpd h b
  | crcFin => exact agree_unlessFaulted h (agree_respond h (by rw [h.crc]) rfl rfl)
  | crcRdt k =>
    exact agree_unlessFaulted h (agree_respond h.tblReady (h.tblRead_eq k)
      (tblReady_responses s) (tblReady_responses u))
  | adlInit => exact agree_unlessFaulted h (agree_next (h.setSums _) rfl rfl)
  | adlUpd x =>
    apply agree_unlessFaulted h
    rw [h.a, h.b]
    exact agree_next (h.setSums _) rfl rfl
  | adlFin => exact agree_unlessFaulted h (agree_respond h (by rw [h.a, h.b]) rfl rfl)
  | frmBegin n => exact agree_execFrmBegin h n
  | frmData x => exact agree_execFrmData h x
  | outPop => exact agree_unlessFaulted h (agree_respond h.outDrop (by rw [h.out]) rfl rfl)
  | outCnt => exact agree_unlessFaulted h (agree_respond h (by rw [h.out]) rfl rfl)

theorem agree_execWord (w : Word) : Agree s u (execWord w s) (execWord w u) := by
  cases hd : decode w with
  | command i => rw [execWord_command hd, execWord_command hd]; exact agree_exec h i
  | illegal r =>
    rw [execWord_illegal hd, execWord_illegal hd]
    exact agree_unlessFaulted h (agree_raiseFault h _ _)

/-- One step from alike states, whatever the host does next. -/
theorem agree_step : Agree s u (step s) (step u) := by
  rcases step_cases s with ⟨hp, e⟩ | ⟨w, rest, hp, e⟩ | ⟨rest, hp, e⟩ <;> rw [e]
  · rw [step_idle (h.pending ▸ hp)]
    exact agree_next h rfl rfl
  · rw [step_command (h.pending ▸ hp)]
    exact agree_execWord (h.setPending rest) w
  · rw [step_reset (h.pending ▸ hp)]
    exact agree_next (State.alike_resetBlock h.outDepth rfl) rfl rfl

end

/-- Any number of steps from alike states. -/
theorem agree_run (n : Nat) {s u : State} (h : s.Alike u) :
    Agree s u (core.run n s) (core.run n u) := by
  induction n generalizing s u with
  | zero => exact agree_next h rfl rfl
  | succ n ih =>
    obtain ⟨t, v, rs, es, eu, ht, hv, htv⟩ := agree_step h
    rw [run_succ es, run_succ eu]
    exact agree_after ht hv (ih htv)

/-- Settles O53: the reset event makes the two states alike, and runs from alike states agree. -/
theorem afterResetOnlyTheWordsMatter : Obligations.AfterResetOnlyTheWordsMatter := by
  intro s u events n hs hu hd
  have alike : (s.setPending events).resetBlock.Alike (u.setPending events).resetBlock :=
    State.alike_resetBlock hd rfl
  obtain ⟨t, v, rs, et, ev, ht, hv, h⟩ := agree_run n alike
  exact ⟨t, v, rs, (run_succ (step_reset hs) n).trans et, (run_succ (step_reset hu) n).trans ev,
    ht, hv, (State.alike_iff t v).mp h⟩

end Sys2Proof.Machine
end

section
/-!
The invariant of spec 10_state section 7 (R30 (a) to (d)): it holds after a reset of either kind,
and every operation that the commands are written in keeps it, so every step does.
-/

namespace Sys2Proof.Machine

/-- Settles O6: both resets are `State.resetBlock`, and a state at reset shows nothing in STATUS. -/
theorem resetValuesAndStatus : Obligations.ResetValuesAndStatus := by
  refine ⟨by simp [State.AtReset, State.reset], fun s => ⟨_, rfl, resetBlock_atReset s⟩,
    fun s rest hp => ⟨_, step_reset hp, resetBlock_atReset _⟩, ?_⟩
  rintro s ⟨tv, -, -, -, -, -, rem, out, flt, fcode, -⟩
  unfold State.status State.one State.fbsy
  rw [tv, rem, out, flt, fcode]
  decide

/-- Settles O40: every depth that the free choice can give is in the range of R4. -/
theorem resetMeetsInvariant : Obligations.ResetMeetsInvariant := by
  have above : Config.outDepthAbove.val < 4294967285 := Config.outDepthAbove.isLt
  refine ⟨by decide, Nat.zero_le _, by decide, fun hv => Bool.noConfusion hv, ?_⟩
  simp only [State.DepthLegal, State.reset, Config.outDepth, Config.outDepthMin,
    Config.outDepthMax]
  omega

/-! ### Operations that keep the invariant -/

/-- An accepted byte pushes as many bytes as `dataNeed` makes room for. -/
theorem acceptByte_out_length (x : Byte) (s : State) :
    (acceptByte x s).out.length = s.out.length + dataNeed s.rem := by
  rw [acceptByte_eq, dataNeed]
  by_cases last : s.rem = 1
  · simp only [if_pos last, List.length_append, List.length_singleton, be32_length]
  · simp only [if_neg last, List.length_append, List.length_singleton, List.length_nil]

namespace State.Inv

variable {s : State} (h : s.Inv)
include h

theorem setCrc (v : Word) : (s.setCrc v).Inv := h

theorem respond (v : Word) : (s.respond v).Inv := h

theorem setPending (p : List HostEvent) : (s.setPending p).Inv := h

theorem setSums {p : Half × Half} (ha : p.1.toNat < 65521) (hb : p.2.toNat < 65521) :
    (s.setSums p).Inv := by
  obtain ⟨⟨-, -, hfa, hfb⟩, rest⟩ := h
  exact ⟨⟨ha, hb, hfa, hfb⟩, rest⟩

theorem setFrameSums {p : Half × Half} (ha : p.1.toNat < 65521) (hb : p.2.toNat < 65521) :
    (s.setFrameSums p).Inv := by
  obtain ⟨⟨hA, hB, -, -⟩, rest⟩ := h
  exact ⟨⟨hA, hB, ha, hb⟩, rest⟩

theorem setRem (n : Half) : (s.setRem n).Inv := h

theorem tblInit : s.tblInit.Inv := by
  obtain ⟨sums, queue, record, -, depth⟩ := h
  exact ⟨sums, queue, record, fun _ => rfl, depth⟩

theorem tblReady : s.tblReady.Inv := by
  rcases tblReady_cases s with ⟨-, e⟩ | ⟨-, e⟩ <;> rw [e]
  · exact h
  · exact h.tblInit

theorem outPush {bs : List Byte} (room : bs.length ≤ s.outFree) : (s.outPush bs).Inv := by
  obtain ⟨sums, queue, rest⟩ := h
  exact ⟨sums, outPush_bounded queue room, rest⟩

theorem outDrop : s.outDrop.Inv := by
  obtain ⟨sums, queue, rest⟩ := h
  exact ⟨sums, outDrop_bounded queue, rest⟩

theorem latch (c : Cause) (w : Word) : (s.latch c w).Inv := by
  obtain ⟨sums, queue, -, rest⟩ := h
  exact ⟨sums, queue, ⟨fun hf => Bool.noConfusion hf, fun _ => faultCode_range c⟩, rest⟩

theorem resetBlock : s.resetBlock.Inv := by
  obtain ⟨-, -, -, -, depth⟩ := h
  exact ⟨by simp [State.SumsReduced], Nat.zero_le _, by simp [State.RecordLegal],
    fun hv => Bool.noConfusion hv, depth⟩

theorem openFrame {n : Half} (room : beginNeed n ≤ s.outFree) : (openFrame n s).Inv :=
  ((h.outPush (by rwa [beginBytes_length])).setFrameSums (by decide) (by decide)).setRem n

theorem acceptByte {x : Byte} (room : dataNeed s.rem ≤ s.outFree) : (acceptByte x s).Inv := by
  obtain ⟨ha, hb⟩ := adlerStep_reduced (s.fa, s.fb) x
  obtain ⟨⟨hA, hB, -, -⟩, queue, rest⟩ := h
  have queue' : (Machine.acceptByte x s).out.length ≤ s.outDepth := by
    rw [acceptByte_out_length]
    unfold State.outFree at room
    omega
  rw [acceptByte_eq] at queue' ⊢
  exact ⟨⟨hA, hB, ha, hb⟩, queue', rest⟩

end State.Inv

/-! ### Commands and steps that keep the invariant -/

section
variable {s t u : State} (h : s.Inv)
include h

theorem inv_of_unlessFaulted (hu : u.Inv) (e : unlessFaulted s (.next u) = .next t) : t.Inv := by
  rcases unlessFaulted_next e with ⟨-, rfl⟩ | ⟨-, ⟨⟩⟩
  · exact h
  · exact hu

theorem inv_of_illegalCommand {w : Word} (e : illegalCommand w s = .next t) : t.Inv := by
  rcases illegalCommand_next e with ⟨-, rfl⟩ | ⟨-, rfl⟩
  · exact h
  · exact h.latch _ w

theorem inv_of_exec {i : Instr} (e : exec i s = .next t) : t.Inv := by
  cases i with
  | sysNop => exact inv_of_unlessFaulted h h e
  | sysRst => cases e; exact h.resetBlock
  | sysStat => cases e; exact h.respond _
  | sysFinfo => cases e; exact h.respond _
  | crcTinit => exact inv_of_unlessFaulted h h.tblInit e
  | crcInit => exact inv_of_unlessFaulted h (h.setCrc _) e
  | crcUpd b => exact inv_of_unlessFaulted h (h.tblReady.setCrc _) e
  | crcFin => exact inv_of_unlessFaulted h (h.respond _) e
  | crcRdt k => exact inv_of_unlessFaulted h (h.tblReady.respond _) e
  | adlInit => exact inv_of_unlessFaulted h (h.setSums (by decide) (by decide)) e
  | adlUpd x =>
    obtain ⟨ha, hb⟩ := adlerStep_reduced (s.a, s.b) x
    exact inv_of_unlessFaulted h (h.setSums ha hb) e
  | adlFin => exact inv_of_unlessFaulted h (h.respond _) e
  | frmBegin n =>
    rcases execFrmBegin_next e with ⟨-, rfl⟩ | ⟨-, -, rfl⟩ | ⟨-, -, -, rfl⟩ | ⟨-, -, room, rfl⟩
    · exact h
    · exact h.latch _ _
    · exact h.latch _ _
    · exact h.openFrame room
  | frmData x =>
    rcases execFrmData_next e with ⟨-, rfl⟩ | ⟨-, -, rfl⟩ | ⟨-, -, -, rfl⟩ | ⟨-, -, room, rfl⟩
    · exact h
    · exact h.latch _ _
    · exact h.latch _ _
    · exact h.acceptByte room
  | outPop => exact inv_of_unlessFaulted h (h.outDrop.respond _) e
  | outCnt => exact inv_of_unlessFaulted h (h.respond _) e

theorem inv_of_execWord {w : Word} (e : execWord w s = .next t) : t.Inv := by
  rcases execWord_cases w s with ⟨i, -, ex⟩ | ⟨r, -, ex⟩ <;> rw [ex] at e
  · exact inv_of_exec h e
  · exact inv_of_illegalCommand h e

end

/-- Settles O41: an idle step changes nothing, a word keeps the invariant, a reset restores it. -/
theorem stepKeepsInvariant : Obligations.StepKeepsInvariant := by
  intro s t h e
  rcases step_cases s with ⟨-, es⟩ | ⟨w, rest, -, es⟩ | ⟨rest, -, es⟩ <;> rw [es] at e
  · cases e; exact h
  · exact inv_of_execWord (h.setPending rest) e
  · cases e; exact (h.setPending rest).resetBlock

end Sys2Proof.Machine
end

section
/-!
What an observer sees of a state (spec 10_state R22, R35): states that look the same are alike and
have returned the same responses, so their steps look the same.
-/

namespace Sys2Proof.Machine

/-- States look the same exactly when they are alike and have returned the same responses. -/
theorem State.observable_eq_iff (s u : State) :
    s.observable = u.observable ↔ s.Alike u ∧ s.responses = u.responses := by
  rw [State.alike_iff]
  constructor
  · intro h
    have hr : s.observable.responses = u.observable.responses := congrArg State.responses h
    exact ⟨congrArg (fun v : State => { v with responses := [] }) h, hr⟩
  · rintro ⟨h, hr⟩
    have back := congrArg (fun v : State => { v with responses := s.responses }) h
    exact back.trans (by rw [hr]; rfl)

/-- Settles O52: the steps agree, so they end in alike states with the same responses. -/
theorem invalidTableIsUnobservable : Obligations.InvalidTableIsUnobservable := by
  intro s u h
  obtain ⟨alike, responses⟩ := (State.observable_eq_iff s u).mp h
  obtain ⟨t, v, rs, es, eu, ht, hv, htv⟩ := agree_step alike
  have same : t.observable = v.observable :=
    (State.observable_eq_iff t v).mpr ⟨htv, by rw [ht, hv, responses]⟩
  rw [es, eu, mapNext_next, mapNext_next, same]

end Sys2Proof.Machine
end

section
/-!
An open frame (spec 10_state R30 (e), 42_stored_framer R122 to R124). From an unfaulted state with
no frame open, `FRM.BEGIN n` and then any commands but SYS.RST and FRM.BEGIN keep
`State.FrameSoFar`, as long as no fault is taken; and with room for all they push, none is.
-/

namespace Sys2Proof.Machine

/-! ### Commands complete, and those that keep the frame do not end a fault -/

/-- A gated command completes when its action does. -/
theorem unlessFaulted_completes {s : State} {act : Result} (h : ∃ t, act = .next t) :
    ∃ t, unlessFaulted s act = .next t := by
  cases hf : s.flt
  · rwa [unlessFaulted_ready hf]
  · exact ⟨s, unlessFaulted_faulted hf act⟩

/-- A framer command, which tests for two faults before it acts, completes. -/
theorem guarded_completes {c d : Prop} [Decidable c] [Decidable d] {s : State} (k k' : Cause)
    (w : Word) (t : State) :
    ∃ t', (if c then raiseFault k w s else if d then raiseFault k' w s else .next t) =
      .next t' := by
  split
  · exact ⟨_, rfl⟩
  · split
    · exact ⟨_, rfl⟩
    · exact ⟨_, rfl⟩

/-- R191: every command answers a next state from every state. -/
theorem exec_completes (i : Instr) (s : State) : ∃ t, exec i s = .next t := by
  cases i with
  | sysRst | sysStat | sysFinfo => exact ⟨_, rfl⟩
  | frmBegin n => exact unlessFaulted_completes (guarded_completes _ _ _ _)
  | frmData x => exact unlessFaulted_completes (guarded_completes _ _ _ _)
  | _ => exact unlessFaulted_completes ⟨_, rfl⟩

/-- A list of commands answers what its tail answers after its first command. -/
theorem runCommands_cons_next {i : Instr} {is : List Instr} {s u : State}
    (e : exec i s = .next u) : runCommands (i :: is) s = runCommands is u := by
  rw [runCommands_cons, e, andThen_next]

/-- R178, R179: a command that keeps the frame does not end a fault. -/
theorem exec_stays_faulted {i : Instr} {s t : State} (hf : s.flt = true)
    (hi : i.keepsFrame = true) (e : exec i s = .next t) : t.flt = true := by
  cases i with
  | sysRst => exact Bool.noConfusion hi
  | sysStat | sysFinfo => cases e; exact hf
  | _ => rw [exec_faulted hf (by rfl)] at e; cases e; exact hf

theorem runCommands_stays_faulted {is : List Instr} {s t : State} (hf : s.flt = true)
    (his : ∀ i ∈ is, i.keepsFrame = true) (e : runCommands is s = .next t) : t.flt = true := by
  induction is generalizing s with
  | nil => cases e; exact hf
  | cons i is ih =>
    obtain ⟨hi, tail⟩ := List.forall_mem_cons.mp his
    obtain ⟨u, eu⟩ := exec_completes i s
    rw [runCommands_cons_next eu] at e
    exact ih (exec_stays_faulted hf hi eu) tail e

/-! ### What a command does to an open frame -/

/-- The framer, the queue and the fault flag are as they were. -/
structure State.SameFramer (s t : State) : Prop where
  fa : t.fa = s.fa
  fb : t.fb = s.fb
  rem : t.rem = s.rem
  out : t.out = s.out
  flt : t.flt = s.flt
  outDepth : t.outDepth = s.outDepth

theorem sameFramer_tblReady (s : State) : s.SameFramer s.tblReady := by
  obtain ⟨t, tv, e⟩ := tblReady_frame s
  rw [e]
  exact ⟨rfl, rfl, rfl, rfl, rfl, rfl⟩

theorem sameFramer_of_unlessFaulted {s t u : State} (e : unlessFaulted s (.next u) = .next t)
    (hu : s.SameFramer u) : s.SameFramer t := by
  rcases unlessFaulted_next e with ⟨-, rfl⟩ | ⟨-, ⟨⟩⟩
  · exact ⟨rfl, rfl, rfl, rfl, rfl, rfl⟩
  · exact hu

/-- The three things that a command which keeps the frame can do to it: nothing, a pop, or a payload
byte supplied. -/
theorem exec_keepsFrame_cases {i : Instr} {s t : State} (hi : i.keepsFrame = true)
    (hf : s.flt = false) (e : exec i s = .next t) :
    (payloadOf [i] = [] ∧ s.SameFramer t) ∨
    (i = .outPop ∧ s.outDrop.SameFramer t) ∨
    (∃ x, i = .frmData x ∧ execFrmData x s = .next t) := by
  cases i with
  | sysRst | frmBegin n => exact Bool.noConfusion hi
  | sysStat | sysFinfo => cases e; exact .inl ⟨rfl, rfl, rfl, rfl, rfl, rfl, rfl⟩
  | crcUpd b | crcRdt k =>
    have same := sameFramer_tblReady s
    exact .inl ⟨rfl, sameFramer_of_unlessFaulted e { same with }⟩
  | frmData x => exact .inr (.inr ⟨x, rfl, e⟩)
  | outPop =>
    have e' := (unlessFaulted_ready hf _).symm.trans e
    cases e'
    exact .inr (.inl ⟨rfl, rfl, rfl, rfl, rfl, rfl, rfl⟩)
  | _ => exact .inl ⟨rfl, sameFramer_of_unlessFaulted e ⟨rfl, rfl, rfl, rfl, rfl, rfl⟩⟩

/-! ### The frame so far -/

/-- The bytes pushed for a frame of `n` payload bytes of which `bs` have been supplied: the seven
leading bytes, the payload, and the trailer once the payload is complete (R115, R122, R123). -/
def frameBytes (n : Half) (bs : List Byte) : List Byte :=
  frameHead n ++ bs ++ if bs.length = n.toNat then be32 (adler32 bs) else []

/-- R30 (e): the frame of `n` bytes begun when the queue held `q` has taken the payload bytes `bs`
and no fault; of what the queue would hold, at most `p` bytes have been popped. -/
structure State.FrameSoFar (q : List Byte) (n : Half) (bs : List Byte) (p : Nat) (s : State) :
    Prop where
  flt : s.flt = false
  rem : s.rem.toNat + bs.length = n.toNat
  sums : (s.fa, s.fb) = adlerFeed adlerInitial bs
  out : ∃ gone : List Byte, gone.length ≤ p ∧ gone ++ s.out = q ++ frameBytes n bs

/-- `FRM.BEGIN` pushes the frame of no payload bytes yet, whose trailer is there when `n = 0`. -/
theorem beginBytes_eq (n : Half) : beginBytes n = frameBytes n [] := by
  unfold beginBytes frameBytes
  by_cases hn : n = 0
  · subst hn; decide
  · have more : ([] : List Byte).length ≠ n.toNat := fun e => hn (BitVec.eq_of_toNat_eq e.symm)
    rw [if_neg hn, if_neg more, List.append_nil, List.append_nil]

/-- While payload bytes are expected, the trailer is not there. -/
theorem frameBytes_open {n : Half} {bs : List Byte} (hlt : bs.length < n.toNat) :
    frameBytes n bs = frameHead n ++ bs := by
  rw [frameBytes, if_neg hlt.ne, List.append_nil]

theorem toNat_sub_one {m : Half} (hm : m ≠ 0) : (m - 1).toNat + 1 = m.toNat := by
  bv_omega

theorem eq_one_iff_toNat {m : Half} : m = 1 ↔ m.toNat = 1 :=
  BitVec.toNat_inj.symm

theorem openFrame_frameSoFar {n : Half} {s : State} (hf : s.flt = false) :
    (openFrame n s).FrameSoFar s.out n [] 0 where
  flt := hf
  rem := rfl
  sums := rfl
  out := ⟨[], le_rfl, congrArg (s.out ++ ·) (beginBytes_eq n)⟩

namespace State.FrameSoFar

variable {q : List Byte} {n : Half} {bs : List Byte} {p : Nat} {s t : State}
  (h : s.FrameSoFar q n bs p)
include h

theorem of_sameFramer (same : s.SameFramer t) : t.FrameSoFar q n bs p where
  flt := same.flt.trans h.flt
  rem := by rw [same.rem]; exact h.rem
  sums := by rw [same.fa, same.fb]; exact h.sums
  out := by rw [same.out]; exact h.out

/-- More pops may be allowed for than there were. -/
theorem mono {p' : Nat} (hp : p ≤ p') : s.FrameSoFar q n bs p' := by
  obtain ⟨gone, hg, e⟩ := h.out
  exact { h with out := ⟨gone, hg.trans hp, e⟩ }

/-- A pop moves the head, if there is one, to the bytes that are gone. -/
theorem outDrop : s.outDrop.FrameSoFar q n bs (p + 1) := by
  obtain ⟨gone, hg, e⟩ := h.out
  refine { h with out := ?_ }
  cases ho : s.out with
  | nil => exact ⟨gone, by omega, by rw [← e, State.outDrop_out, ho, List.drop_nil]⟩
  | cons x rest =>
    refine ⟨gone ++ [x], by simpa using hg, ?_⟩
    rw [← e, State.outDrop_out, ho, List.append_assoc]
    rfl

/-- An accepted byte extends the payload; the last one completes it, and the trailer follows. -/
theorem acceptByte {x : Byte} (hr : s.rem ≠ 0) :
    (acceptByte x s).FrameSoFar q n (bs ++ [x]) p := by
  obtain ⟨gone, hg, e⟩ := h.out
  have count := h.rem
  have one := toNat_sub_one hr
  have more : bs.length < n.toNat := by omega
  have sums : adlerStep (s.fa, s.fb) x = adlerFeed adlerInitial (bs ++ [x]) := by
    rw [h.sums, adlerFeed_append]; rfl
  have last : s.rem = 1 ↔ (bs ++ [x]).length = n.toNat := by
    rw [eq_one_iff_toNat, List.length_append, List.length_singleton]
    omega
  rw [acceptByte_eq]
  refine ⟨h.flt, ?_, sums, gone, hg, ?_⟩
  · rw [List.length_append, List.length_singleton]
    change (s.rem - 1).toNat + _ = _
    omega
  · rw [frameBytes_open more] at e
    simp only [frameBytes, sums, last, adler32, ← List.append_assoc, e]

/-- A command that keeps the frame takes a fault, or takes the frame on by its payload byte. -/
theorem after_exec {i : Instr} (hi : i.keepsFrame = true) (e : exec i s = .next t) :
    t.flt = true ∨ t.FrameSoFar q n (bs ++ payloadOf [i]) (p + [i].count .outPop) := by
  rcases exec_keepsFrame_cases hi h.flt e with ⟨none, same⟩ | ⟨rfl, same⟩ | ⟨x, rfl, ed⟩
  · rw [none, List.append_nil]
    exact .inr ((h.of_sameFramer same).mono (Nat.le_add_right _ _))
  · exact .inr (by simpa [payloadOf] using h.outDrop.of_sameFramer same)
  · rcases execFrmData_next ed with ⟨hf, -⟩ | ⟨-, -, rfl⟩ | ⟨-, -, -, rfl⟩ | ⟨-, hr, -, rfl⟩
    · exact Bool.noConfusion (h.flt.symm.trans hf)
    · exact .inl rfl
    · exact .inl rfl
    · exact .inr ((h.acceptByte hr).mono (Nat.le_add_right _ _))

/-- R30 (e) over a list of commands, wherever they end without a fault. -/
theorem after_runCommands {is : List Instr} (his : ∀ i ∈ is, i.keepsFrame = true)
    (e : runCommands is s = .next t) (hf : t.flt = false) :
    t.FrameSoFar q n (bs ++ payloadOf is) (p + is.count .outPop) := by
  induction is generalizing s bs p with
  | nil => cases e; simpa [payloadOf] using h
  | cons i is ih =>
    obtain ⟨hi, tail⟩ := List.forall_mem_cons.mp his
    obtain ⟨u, eu⟩ := exec_completes i s
    rw [runCommands_cons_next eu] at e
    rcases h.after_exec hi eu with faulted | h'
    · exact Bool.noConfusion (hf.symm.trans (runCommands_stays_faulted faulted tail e))
    · have frame := ih h' tail e
      rwa [List.append_assoc, ← payloadOf_append, add_assoc, ← List.count_append] at frame

end State.FrameSoFar

/-! ### Room for the rest of the frame -/

/-- The room that `l` more payload bytes need when `rem` are expected: the trailer's four bytes more
when they are the last (R123). -/
def payloadNeed (rem : Half) (l : Nat) : Nat :=
  if 0 < l ∧ l = rem.toNat then l + 4 else l

/-- The frame still expects `l` more payload bytes, and the queue has room for what they push. -/
def State.HasRoom (s : State) (l : Nat) : Prop :=
  l ≤ s.rem.toNat ∧ payloadNeed s.rem l ≤ s.outFree

theorem State.HasRoom.of_sameFramer {s t : State} {l : Nat} (h : s.HasRoom l)
    (same : s.SameFramer t) : t.HasRoom l := by
  unfold State.HasRoom State.outFree
  rw [same.rem, same.out, same.outDepth]
  exact h

/-- A pop takes no room away. -/
theorem State.HasRoom.outDrop {s : State} {l : Nat} (h : s.HasRoom l) : s.outDrop.HasRoom l := by
  obtain ⟨expected, room⟩ := h
  refine ⟨expected, room.trans ?_⟩
  unfold State.outFree
  rw [State.outDrop_out, State.outDrop_outDepth, List.length_drop]
  omega

/-- The byte that is supplied next needs its part of the room. -/
theorem payloadNeed_succ {rem : Half} {l : Nat} (hl : l + 1 ≤ rem.toNat) :
    payloadNeed rem (l + 1) = dataNeed rem + payloadNeed (rem - 1) l := by
  have one : (rem - 1).toNat + 1 = rem.toNat :=
    toNat_sub_one (by rintro rfl; exact Nat.not_succ_le_zero l hl)
  unfold payloadNeed dataNeed
  simp only [eq_one_iff_toNat]
  split_ifs <;> omega

/-- With room for `l + 1` payload bytes, one passes both tests and leaves room for `l`. -/
theorem State.HasRoom.after_execFrmData {x : Byte} {s t : State} {l : Nat} (h : s.HasRoom (l + 1))
    (hf : s.flt = false) (e : execFrmData x s = .next t) : t.flt = false ∧ t.HasRoom l := by
  obtain ⟨expected, room⟩ := h
  rw [payloadNeed_succ expected] at room
  rcases execFrmData_next e with ⟨hf', -⟩ | ⟨-, closed, -⟩ | ⟨-, -, full, -⟩ | ⟨-, hr, -, rfl⟩
  · exact Bool.noConfusion (hf.symm.trans hf')
  · exact absurd expected (by rw [closed]; exact Nat.not_succ_le_zero l)
  · omega
  · have one := toNat_sub_one hr
    have free : (acceptByte x s).outFree = s.outFree - dataNeed s.rem := by
      unfold State.outFree
      rw [acceptByte_out_length, Nat.sub_sub, acceptByte_eq]
    rw [State.HasRoom, free, acceptByte_eq]
    exact ⟨hf, show l ≤ (s.rem - 1).toNat by omega, show payloadNeed (s.rem - 1) l ≤ _ by omega⟩

/-- With room for all the payload bytes that the commands supply, none of them takes a fault. -/
theorem runCommands_ready_of_hasRoom {is : List Instr} {s : State}
    (his : ∀ i ∈ is, i.keepsFrame = true) (hf : s.flt = false)
    (room : s.HasRoom (payloadOf is).length) :
    ∃ t, runCommands is s = .next t ∧ t.flt = false := by
  induction is generalizing s with
  | nil => exact ⟨s, rfl, hf⟩
  | cons i is ih =>
    obtain ⟨hi, tail⟩ := List.forall_mem_cons.mp his
    obtain ⟨u, eu⟩ := exec_completes i s
    have payload : payloadOf (i :: is) = payloadOf [i] ++ payloadOf is := payloadOf_append [i] is
    rw [runCommands_cons_next eu]
    rw [payload] at room
    rcases exec_keepsFrame_cases hi hf eu with ⟨none, same⟩ | ⟨rfl, same⟩ | ⟨x, rfl, ed⟩
    · rw [none] at room
      exact ih tail (same.flt.trans hf) (room.of_sameFramer same)
    · exact ih tail (same.flt.trans hf) (room.outDrop.of_sameFramer same)
    · obtain ⟨hf', room'⟩ := room.after_execFrmData hf ed
      exact ih tail hf' room'

/-- `FRM.BEGIN` opens a frame when none is open and there is room for its bytes (R122). -/
theorem exec_frmBegin_of_room {n : Half} {s : State} (hf : s.flt = false) (hr : s.rem = 0)
    (room : beginNeed n ≤ s.outFree) : exec (.frmBegin n) s = .next (openFrame n s) := by
  show execFrmBegin n s = _
  rw [execFrmBegin, unlessFaulted_ready hf, if_neg (not_not.mpr hr), if_neg room.not_gt]

/-- Where `FRM.BEGIN` and commands that keep the frame end without a fault, the frame was opened and
holds the payload they supplied. -/
theorem frameSoFar_of_frmBegin {n : Half} {is : List Instr} {s t : State} (hf : s.flt = false)
    (his : ∀ i ∈ is, i.keepsFrame = true) (e : runCommands (.frmBegin n :: is) s = .next t)
    (hft : t.flt = false) : t.FrameSoFar s.out n (payloadOf is) (is.count .outPop) := by
  obtain ⟨u, eu⟩ := exec_completes (.frmBegin n) s
  rw [runCommands_cons_next eu] at e
  have ready : u.flt = false := Bool.eq_false_of_not_eq_true fun faulted =>
    Bool.noConfusion (hft.symm.trans (runCommands_stays_faulted faulted his e))
  have opened : u = openFrame n s := by
    rcases execFrmBegin_next eu with ⟨hf', -⟩ | ⟨-, -, rfl⟩ | ⟨-, -, -, rfl⟩ | ⟨-, -, -, e⟩
    · exact Bool.noConfusion (hf.symm.trans hf')
    · exact Bool.noConfusion ready
    · exact Bool.noConfusion ready
    · exact e
  subst opened
  simpa using (openFrame_frameSoFar hf).after_runCommands his e hft

/-- The two sums as the halves of one number (R100). -/
theorem adlerWord_toNat (p : Half × Half) :
    (adlerWord p).toNat = p.2.toNat * 65536 + p.1.toNat := by
  have low : p.1.toNat < 2 ^ 16 := p.1.isLt
  have high : p.2.toNat <<< 16 < 2 ^ 32 := by rw [Nat.shiftLeft_eq]; omega
  have sum := Nat.shiftLeft_add_eq_or_of_lt low p.2.toNat
  rw [adlerWord, zextHalf, zextHalf, BitVec.toNat_or, BitVec.toNat_shiftLeft,
    BitVec.toNat_setWidth_of_le (by decide), BitVec.toNat_setWidth_of_le (by decide),
    Nat.mod_eq_of_lt high, ← sum, Nat.shiftLeft_eq]

/-- Settles O47: with room from the start no command takes a fault, and without a fault the commands
keep `State.FrameSoFar`, whose trailer is not there while payload bytes are expected. -/
theorem openFrameSumsFollowThePayload : Obligations.OpenFrameSumsFollowThePayload := by
  intro s n cmds hf hr hcmds hlt
  refine ⟨fun room => ?_, fun t e hft => ?_⟩
  · have need : beginNeed n = 7 := if_neg (by rintro rfl; exact absurd hlt (Nat.not_lt_zero _))
    have opens := exec_frmBegin_of_room hf hr (n := n) (by rw [need]; unfold State.outFree; omega)
    rw [runCommands_cons_next opens]
    refine runCommands_ready_of_hasRoom hcmds hf ⟨hlt.le, ?_⟩
    rw [payloadNeed, if_neg (fun ⟨_, e⟩ => hlt.ne e), State.outFree, openFrame_eq]
    simp only [List.length_append, beginBytes_length, need]
    omega
  · have frame := frameSoFar_of_frmBegin hf hcmds e hft
    obtain ⟨gone, popped, out⟩ := frame.out
    have count := frame.rem
    refine ⟨by omega, ?_, gone.length, popped, ?_⟩
    · rw [adler32, ← frame.sums, adlerWord_toNat]
    · rw [List.append_assoc, ← frameBytes_open hlt, ← out, List.drop_left]

end Sys2Proof.Machine
end

section
/-!
What a command does to the output queue (spec 20_memory R42) and to the command port (R50, 00_scope
R4). A property of the state after a gated command or a framer command need only be shown of the few
states that such a command can end in.
-/

namespace Sys2Proof.Machine

/-! ### Every state that a shared operation can end in -/

section
variable {P : State → Prop} {s t u : State} (hs : P s)
include hs

theorem of_unlessFaulted (e : unlessFaulted s (.next u) = .next t) (hu : P u) : P t := by
  rcases unlessFaulted_next e with ⟨-, rfl⟩ | ⟨-, ⟨⟩⟩
  · exact hs
  · exact hu

theorem of_illegalCommand {w : Word} (e : illegalCommand w s = .next t)
    (latched : ∀ c w, P (s.latch c w)) : P t := of_unlessFaulted hs e (latched _ w)

theorem of_execFrmBegin {n : Half} (e : execFrmBegin n s = .next t)
    (latched : ∀ c w, P (s.latch c w)) (opened : P (openFrame n s)) : P t := by
  rcases execFrmBegin_next e with ⟨-, rfl⟩ | ⟨-, -, rfl⟩ | ⟨-, -, -, rfl⟩ | ⟨-, -, -, rfl⟩
  · exact hs
  · exact latched _ _
  · exact latched _ _
  · exact opened

theorem of_execFrmData {x : Byte} (e : execFrmData x s = .next t)
    (latched : ∀ c w, P (s.latch c w)) (accepted : P (acceptByte x s)) : P t := by
  rcases execFrmData_next e with ⟨-, rfl⟩ | ⟨-, -, rfl⟩ | ⟨-, -, -, rfl⟩ | ⟨-, -, -, rfl⟩
  · exact hs
  · exact latched _ _
  · exact latched _ _
  · exact accepted

end

/-! ### The queue -/

/-- What the command `i`, if it is not SYS.RST, can have done to the queue of `s` when it ends in
`t`: nothing, a pop of the head, or a push of at most eleven bytes at the tail (R42). -/
inductive State.QueueAfter (i : Instr) (s t : State) : Prop
  | same (out : t.out = s.out)
  | popped (pop : i = .outPop) (out : t.out = s.out.drop 1)
  | pushed (bs : List Byte) (framer : i.ofFramer = true) (few : bs.length ≤ 11)
      (out : t.out = s.out ++ bs)

theorem beginNeed_le (n : Half) : beginNeed n ≤ 11 := by
  unfold beginNeed
  split
  · exact le_rfl
  · decide

theorem queueAfter_openFrame (n : Half) (s : State) :
    s.QueueAfter (.frmBegin n) (openFrame n s) :=
  .pushed (beginBytes n) rfl ((beginBytes_length n).trans_le (beginNeed_le n)) rfl

/-- An accepted byte is followed by the four bytes of the trailer, or by none. -/
theorem queueAfter_acceptByte (x : Byte) (s : State) :
    s.QueueAfter (.frmData x) (acceptByte x s) := by
  rw [acceptByte_eq]
  refine .pushed _ rfl ?_ (List.append_assoc _ _ _)
  split
  · exact (by decide : 1 + 4 ≤ 11)
  · exact (by decide : 1 ≤ 11)

theorem queueAfter_of_exec {i : Instr} {s t : State} (hi : i ≠ .sysRst) (e : exec i s = .next t) :
    s.QueueAfter i t := by
  cases i with
  | sysRst => exact absurd rfl hi
  | sysStat | sysFinfo => cases e; exact .same rfl
  | crcUpd b | crcRdt k => exact of_unlessFaulted (.same rfl) e (.same (sameFramer_tblReady s).out)
  | frmBegin n =>
    exact of_execFrmBegin (.same rfl) e (fun _ _ => .same rfl) (queueAfter_openFrame n s)
  | frmData x =>
    exact of_execFrmData (.same rfl) e (fun _ _ => .same rfl) (queueAfter_acceptByte x s)
  | outPop => exact of_unlessFaulted (.same rfl) e (.popped rfl rfl)
  | _ => exact of_unlessFaulted (.same rfl) e (.same rfl)

/-- Settles O38: nothing happens to the queue, or its head is popped, or the framer pushes. -/
theorem queueIsFirstInFirstOut : Obligations.QueueIsFirstInFirstOut := by
  intro i s hi
  obtain ⟨t, e⟩ := exec_completes i s
  rcases queueAfter_of_exec hi e with out | ⟨pop, out⟩ | ⟨bs, framer, few, out⟩
  · exact ⟨t, 0, [], e, by simpa using out, .inl rfl, .inl rfl, by decide⟩
  · exact ⟨t, 1, [], e, by simpa using out, .inr ⟨rfl, pop⟩, .inl rfl, by decide⟩
  · exact ⟨t, 0, bs, e, out, .inl rfl, .inr framer, few⟩

/-! ### The command port -/

/-- What a command can have done to the command port of `s` when it ends in `t`: nothing, or one
response returned (R70). -/
def State.PortAfter (s t : State) : Prop := s.SamePort t ∨ ∃ v, (s.respond v).SamePort t

theorem portAfter_self (s : State) : s.PortAfter s := .inl ⟨rfl, rfl, rfl⟩

theorem portAfter_respond {s u : State} (h : s.SamePort u) (v : Word) :
    s.PortAfter (u.respond v) := by
  obtain ⟨outDepth, pending, responses⟩ := h
  exact .inr ⟨v, outDepth, pending, congrArg (· ++ [v]) responses⟩

theorem portAfter_latch (s : State) (c : Cause) (w : Word) : s.PortAfter (s.latch c w) :=
  .inl ⟨rfl, rfl, rfl⟩

theorem tblReady_samePort (s : State) : s.SamePort s.tblReady := by
  obtain ⟨t, tv, e⟩ := tblReady_frame s
  rw [e]
  exact ⟨rfl, rfl, rfl⟩

theorem acceptByte_samePort (x : Byte) (s : State) : s.SamePort (acceptByte x s) := by
  rw [acceptByte_eq]
  exact ⟨rfl, rfl, rfl⟩

theorem portAfter_of_exec {i : Instr} {s t : State} (e : exec i s = .next t) : s.PortAfter t := by
  have idle := portAfter_self s
  have answer := portAfter_respond (s := s) ⟨rfl, rfl, rfl⟩
  cases i with
  | sysRst => cases e; exact .inl (resetBlock_samePort s)
  | sysStat | sysFinfo => cases e; exact answer _
  | crcFin | adlFin | outCnt => exact of_unlessFaulted idle e (answer _)
  | outPop => exact of_unlessFaulted idle e (.inr ⟨popAnswer s.out, rfl, rfl, rfl⟩)
  | crcUpd b => exact of_unlessFaulted idle e (.inl (tblReady_samePort s))
  | crcRdt k => exact of_unlessFaulted idle e (portAfter_respond (tblReady_samePort s) _)
  | frmBegin n => exact of_execFrmBegin idle e (portAfter_latch s) (.inl ⟨rfl, rfl, rfl⟩)
  | frmData x => exact of_execFrmData idle e (portAfter_latch s) (.inl (acceptByte_samePort x s))
  | _ => exact of_unlessFaulted idle e (.inl ⟨rfl, rfl, rfl⟩)

/-- A word completes, legal or not (R191), with at most one response. -/
theorem execWord_portAfter (w : Word) (s : State) : ∃ t, execWord w s = .next t ∧ s.PortAfter t := by
  rcases execWord_cases w s with ⟨i, -, ex⟩ | ⟨r, -, ex⟩ <;> rw [ex]
  · obtain ⟨t, e⟩ := exec_completes i s
    exact ⟨t, e, portAfter_of_exec e⟩
  · obtain ⟨t, e⟩ := unlessFaulted_completes (s := s) ⟨s.latch .illegalCmd w, rfl⟩
    exact ⟨t, e, of_illegalCommand (portAfter_self s) e (portAfter_latch s)⟩

/-- A step takes the first pending event and acts on the port of the state without it. -/
theorem step_portAfter (s : State) :
    ∃ t, step s = .next t ∧ (s.setPending (s.pending.drop 1)).PortAfter t := by
  rcases step_cases s with ⟨hp, e⟩ | ⟨w, rest, hp, e⟩ | ⟨rest, hp, e⟩ <;> rw [e, hp]
  · exact ⟨s, rfl, .inl ⟨rfl, hp, rfl⟩⟩
  · exact execWord_portAfter w (s.setPending rest)
  · exact ⟨_, rfl, .inl (resetBlock_samePort (s.setPending rest))⟩

/-- Settles O39: the port after a step is the port without the first event, or with one response
more. -/
theorem stepTakesEventsInOrder : Obligations.StepTakesEventsInOrder := by
  intro s
  obtain ⟨t, e, ⟨outDepth, pending, responses⟩ | ⟨v, outDepth, pending, responses⟩⟩ :=
    step_portAfter s
  · exact ⟨t, e, pending, outDepth, [], Nat.zero_le _, by simpa using responses⟩
  · exact ⟨t, e, pending, outDepth, [v], le_rfl, responses⟩

end Sys2Proof.Machine
end

section
/-!
The opcode table as arithmetic on the word (spec 30_encoding R60 to R68). A word is in the row of a
mnemonic when its top byte is the opcode and the bits above the operand field are zero: this is what
the mask and match columns say, what the decoder tests and what the encoder writes.
-/

namespace Sys2Proof.Machine

/-! ### Words in a row of the table -/

/-- The number of operand bits of a format (R61). -/
def fieldWidth : Format → Nat
  | .noOperand => 0
  | .byteOperand => 8
  | .halfOperand => 16

/-- The word has the opcode of `m` in its top byte and, below it, an operand that fits the field of
the format of `m`: all other bits are zero (R61). -/
def InRow (m : Mnemonic) (w : Word) : Prop :=
  w.toNat / 16777216 = (opcodeOf m).toNat ∧ w.toNat % 16777216 < 2 ^ fieldWidth (formatOf m)

theorem mem_mnemonics (m : Mnemonic) : m ∈ mnemonics := by cases m <;> decide

/-- No two rows have the same opcode (R63). -/
theorem opcodeOf_injective {m m' : Mnemonic} (h : (opcodeOf m).toNat = (opcodeOf m').toNat) :
    m = m' :=
  (by decide : ∀ x ∈ mnemonics, ∀ y ∈ mnemonics, (opcodeOf x).toNat = (opcodeOf y).toNat → x = y)
    m (mem_mnemonics m) m' (mem_mnemonics m') h

theorem InRow.unique {m m' : Mnemonic} {w : Word} (h : InRow m w) (h' : InRow m' w) : m = m' :=
  opcodeOf_injective (h.1.symm.trans h'.1)

/-! ### The mask and match columns -/

theorem opcodeWord_toNat (m : Mnemonic) :
    (opcodeWord m).toNat = (opcodeOf m).toNat * 16777216 := by cases m <;> rfl

theorem rowMask_eq (m : Mnemonic) :
    rowMask m = BitVec.allOnes 32 <<< fieldWidth (formatOf m) := by cases m <;> rfl

theorem rowMatch_eq (m : Mnemonic) : rowMatch m = opcodeWord m := by cases m <;> rfl

/-- Masking off the low `k` bits rounds down to a multiple of `2 ^ k`. -/
theorem toNat_and_shiftLeft_allOnes (w : Word) (k : Nat) :
    (w &&& BitVec.allOnes 32 <<< k).toNat = w.toNat / 2 ^ k * 2 ^ k := by
  have small : w.toNat / 2 ^ k * 2 ^ k < 2 ^ 32 := (Nat.div_mul_le_self _ _).trans_lt w.isLt
  rw [← BitVec.shiftLeft_ushiftRight, BitVec.toNat_shiftLeft, BitVec.toNat_ushiftRight,
    Nat.shiftRight_eq_div_pow, Nat.shiftLeft_eq, Nat.mod_eq_of_lt small]

/-- `W & mask = match` says that the word is in the row (R61, R63). -/
theorem masked_eq_match_iff (m : Mnemonic) (w : Word) :
    w &&& rowMask m = rowMatch m ↔ InRow m w := by
  rw [rowMask_eq, rowMatch_eq, ← BitVec.toNat_inj, toNat_and_shiftLeft_allOnes, opcodeWord_toNat,
    InRow]
  cases formatOf m <;> simp only [fieldWidth, Nat.reducePow] <;> omega

/-! ### The fields that the decoder reads -/

theorem opcodeField_toNat (w : Word) : (opcodeField w).toNat = w.toNat / 16777216 := by
  have top : w.toNat < 2 ^ 32 := w.isLt
  rw [opcodeField, BitVec.extractLsb'_toNat, Nat.shiftRight_eq_div_pow]
  omega

theorem reservedZero_iff (f : Format) (w : Word) :
    reservedZero f w = true ↔ w.toNat % 16777216 < 2 ^ fieldWidth f := by
  cases f <;>
    simp only [reservedZero, fieldWidth, beq_iff_eq, ← BitVec.toNat_inj, BitVec.extractLsb'_toNat,
      BitVec.ofNat_eq_ofNat, BitVec.toNat_ofNat, Nat.shiftRight_eq_div_pow, Nat.reducePow] <;>
    omega

/-- An opcode selects the row that it stands in (R63). -/
theorem mnemonicOf_eq_some_iff (opc : Byte) (m : Mnemonic) :
    mnemonicOf opc = some m ↔ (opcodeOf m).toNat = opc.toNat := by
  constructor
  · have listed : ∀ b : Byte, ∀ m' ∈ mnemonicOf b, (opcodeOf m').toNat = b.toNat := by decide
    exact listed opc m
  · intro h
    rw [← BitVec.eq_of_toNat_eq h]
    cases m <;> rfl

theorem mnemonicOf_opcodeField_iff (w : Word) (m : Mnemonic) :
    mnemonicOf (opcodeField w) = some m ↔ w.toNat / 16777216 = (opcodeOf m).toNat := by
  rw [mnemonicOf_eq_some_iff, opcodeField_toNat, eq_comm]

@[simp] theorem commandOf_mnemonic (w : Word) (m : Mnemonic) : (commandOf w m).mnemonic = m := by
  cases m <;> rfl

@[simp] theorem commandOf_operand (w : Word) (m : Mnemonic) :
    (commandOf w m).operand = operandField (formatOf m) w := by cases m <;> rfl

/-- A value that fits the field is read back from it. -/
theorem extractLsb'_ofNat_toNat {k : Nat} (hk : k ≤ 32) (v : BitVec k) :
    (BitVec.ofNat 32 v.toNat).extractLsb' 0 k = v := by
  apply BitVec.eq_of_toNat_eq
  have fits : v.toNat < 2 ^ 32 := v.isLt.trans_le (Nat.pow_le_pow_right (by decide) hk)
  rw [BitVec.extractLsb'_toNat, BitVec.toNat_ofNat, Nat.mod_eq_of_lt fits, Nat.shiftRight_zero,
    Nat.mod_eq_of_lt v.isLt]

/-- A command is given by its mnemonic and its operand (R62). -/
theorem commandOf_operand_self (i : Instr) :
    commandOf (BitVec.ofNat 32 (i.operand.getD 0)) i.mnemonic = i := by
  cases i with
  | crcUpd b | crcRdt b | adlUpd b | frmData b =>
    exact congrArg _ (extractLsb'_ofNat_toNat (by decide) b)
  | frmBegin n => exact congrArg Instr.frmBegin (extractLsb'_ofNat_toNat (by decide) n)
  | _ => rfl

theorem instr_ext {i j : Instr} (hm : i.mnemonic = j.mnemonic) (ho : i.operand = j.operand) :
    i = j := by
  rw [← commandOf_operand_self i, hm, ho, commandOf_operand_self j]

/-- The command of a row is the one with the mnemonic of the row and the operand in the field. -/
theorem commandOf_eq_iff (w : Word) (m : Mnemonic) (i : Instr) :
    commandOf w m = i ↔ i.mnemonic = m ∧ i.operand = operandField (formatOf m) w := by
  constructor
  · rintro rfl
    exact ⟨commandOf_mnemonic w m, commandOf_operand w m⟩
  · rintro ⟨hm, ho⟩
    exact instr_ext (by simp [hm]) (by simp [ho])

/-! ### What the decoder answers -/

theorem decode_of_inRow {m : Mnemonic} {w : Word} (h : InRow m w) :
    decode w = .command (commandOf w m) := by
  unfold decode
  rw [(mnemonicOf_opcodeField_iff w m).mpr h.1]
  exact if_pos ((reservedZero_iff _ w).mpr h.2)

/-- Everything that `decode` can answer, by the opcode and the bits below it (R64, R65). -/
theorem decode_cases (w : Word) :
    ((∀ m, w.toNat / 16777216 ≠ (opcodeOf m).toNat) ∧ decode w = .illegal .unassignedOpcode) ∨
    ∃ m, w.toNat / 16777216 = (opcodeOf m).toNat ∧
      (2 ^ fieldWidth (formatOf m) ≤ w.toNat % 16777216 ∧ decode w = .illegal .reservedBits ∨
        InRow m w ∧ decode w = .command (commandOf w m)) := by
  cases hm : mnemonicOf (opcodeField w) with
  | none =>
    refine .inl ⟨fun m h => ?_, by unfold decode; rw [hm]⟩
    exact nomatch hm.symm.trans ((mnemonicOf_opcodeField_iff w m).mpr h)
  | some m =>
    have opc := (mnemonicOf_opcodeField_iff w m).mp hm
    refine .inr ⟨m, opc, ?_⟩
    by_cases low : w.toNat % 16777216 < 2 ^ fieldWidth (formatOf m)
    · exact .inr ⟨⟨opc, low⟩, decode_of_inRow ⟨opc, low⟩⟩
    · refine .inl ⟨not_lt.mp low, ?_⟩
      unfold decode
      rw [hm]
      exact if_neg (mt (reservedZero_iff _ w).mp low)

theorem decode_command_iff (w : Word) (i : Instr) :
    decode w = .command i ↔
      InRow i.mnemonic w ∧ i.operand = operandField (formatOf i.mnemonic) w := by
  constructor
  · intro h
    rcases decode_cases w with ⟨-, d⟩ | ⟨m, -, ⟨-, d⟩ | ⟨row, d⟩⟩ <;> cases h.symm.trans d
    simp [row]
  · rintro ⟨row, operand⟩
    rw [decode_of_inRow row, (commandOf_eq_iff w _ i).mpr ⟨rfl, operand⟩]

theorem decode_unassigned_iff (w : Word) :
    decode w = .illegal .unassignedOpcode ↔ ∀ m, w.toNat / 16777216 ≠ (opcodeOf m).toNat := by
  rcases decode_cases w with ⟨none, d⟩ | ⟨m, opc, ⟨-, d⟩ | ⟨-, d⟩⟩ <;> simp only [d]
  · simpa using none
  · simpa using ⟨m, opc⟩
  · simpa using ⟨m, opc⟩

theorem decode_reserved_iff (w : Word) :
    decode w = .illegal .reservedBits ↔ ∃ m, w.toNat / 16777216 = (opcodeOf m).toNat ∧
      2 ^ fieldWidth (formatOf m) ≤ w.toNat % 16777216 := by
  constructor
  · intro h
    rcases decode_cases w with ⟨-, d⟩ | ⟨m, opc, ⟨high, d⟩ | ⟨-, d⟩⟩ <;> cases h.symm.trans d
    exact ⟨m, opc, high⟩
  · rintro ⟨m, opc, high⟩
    rcases decode_cases w with ⟨none, -⟩ | ⟨m', opc', ⟨-, d⟩ | ⟨row, -⟩⟩
    · exact absurd opc (none m)
    · exact d
    · rw [opcodeOf_injective (opc.symm.trans opc')] at high
      exact absurd row.2 (not_lt.mpr high)

/-- A word is a command exactly when it is in some row (R64). -/
theorem legal_iff_inRow (w : Word) : (∃ i, decode w = .command i) ↔ ∃ m, InRow m w :=
  ⟨fun ⟨i, h⟩ => ⟨i.mnemonic, ((decode_command_iff w i).mp h).1⟩,
    fun ⟨_, row⟩ => ⟨_, decode_of_inRow row⟩⟩

theorem illegal_iff_not_legal (w : Word) :
    (∃ r, decode w = .illegal r) ↔ ¬ ∃ i, decode w = .command i := by
  cases decode w <;> simp

/-! ### The words that the encoder writes -/

/-- The word of every command is in the row of its mnemonic. -/
theorem inRow_encode (i : Instr) : InRow i.mnemonic (encode i) := by
  rw [← masked_eq_match_iff]
  cases i with
  | crcUpd b => exact (Laws.TableRow.crcUpd b).2
  | crcRdt b => exact (Laws.TableRow.crcRdt b).2
  | adlUpd x => exact (Laws.TableRow.adlUpd x).2
  | frmBegin n => exact (Laws.TableRow.frmBegin n).2
  | frmData x => exact (Laws.TableRow.frmData x).2
  | _ => rfl

/-- The operand is read back from below the opcode. -/
theorem extractLsb'_opcodeWord_or {k : Nat} (hk : k ≤ 24) (m : Mnemonic) (v : BitVec k) :
    (opcodeWord m ||| v.setWidth 32).extractLsb' 0 k = v := by
  ext i hi
  have belowOpcode : i < 24 := by omega
  have inWord : i < 32 := by omega
  simp [opcodeWord, zextByte, hi, belowOpcode, inWord]

theorem operandField_encode (i : Instr) :
    operandField (formatOf i.mnemonic) (encode i) = i.operand := by
  cases i with
  | crcUpd b | crcRdt b | adlUpd b | frmData b =>
    exact congrArg (fun v : Byte => some v.toNat) (extractLsb'_opcodeWord_or (by decide) _ b)
  | frmBegin n =>
    exact congrArg (fun v : Half => some v.toNat) (extractLsb'_opcodeWord_or (by decide) _ n)
  | _ => rfl

theorem decode_encode (i : Instr) : decode (encode i) = .command i :=
  (decode_command_iff _ i).mpr ⟨inRow_encode i, (operandField_encode i).symm⟩

/-- A word in a row is the opcode and the operand, and no further bits. -/
theorem InRow.toNat_eq {m : Mnemonic} {w : Word} (h : InRow m w) :
    w.toNat = (opcodeOf m).toNat * 16777216 + (operandField (formatOf m) w).getD 0 := by
  obtain ⟨opc, low⟩ := h
  cases hf : formatOf m <;> rw [hf] at low <;>
    simp only [fieldWidth, Nat.reducePow, operandField, Option.getD_none, Option.getD_some]
      at low ⊢ <;> omega

/-- No two words decode to the same command (R62 to R64). -/
theorem decode_injective {w w' : Word} {i : Instr} (h : decode w = .command i)
    (h' : decode w' = .command i) : w = w' := by
  obtain ⟨row, operand⟩ := (decode_command_iff w i).mp h
  obtain ⟨row', operand'⟩ := (decode_command_iff w' i).mp h'
  exact BitVec.eq_of_toNat_eq (by rw [row.toNat_eq, row'.toNat_eq, ← operand, ← operand'])

/-! ### The settled statements -/

/-- Settles O9: the word of a command is in the row of the command and carries its operand. -/
theorem encodeThenDecode : Obligations.EncodeThenDecode := fun i _ => decode_encode i

/-- Settles O10: the word and the word that `encode` writes decode to the same command. -/
theorem decodeThenEncode : Obligations.DecodeThenEncode :=
  fun _ i h => decode_injective (decode_encode i) h

/-- Settles O7: mask and match say that the word is in the row, and `decode` answers by the row. -/
theorem decodeFollowsTheOpcodeTable : Obligations.DecodeFollowsTheOpcodeTable := by
  simp only [Obligations.DecodeFollowsTheOpcodeTable, ne_eq, masked_eq_match_iff]
  refine ⟨decode_command_iff, fun w => ?_, fun w m m' => InRow.unique⟩
  rw [illegal_iff_not_legal, legal_iff_inRow, not_exists]

/-- Settles O12: each word is decoded. -/
theorem writtenOutWordsDecode : Obligations.WrittenOutWordsDecode := by
  unfold Obligations.WrittenOutWordsDecode
  decide

end Sys2Proof.Machine
end

section
/-!
Illegal words (spec 30_encoding R65), the number of the legal ones (R66), and written commands
(R68), from the rows of the opcode table.
-/

namespace Sys2Proof.Machine

/-! ### The two cases of an illegal word -/

/-- The opcodes of the commands of a format, as numbers, in the order of R63. -/
def opcodesOf (f : Format) : List Nat :=
  (mnemonics.filter fun m => formatOf m = f).map fun m => (opcodeOf m).toNat

theorem mem_opcodesOf {f : Format} {n : Nat} :
    n ∈ opcodesOf f ↔ ∃ m, formatOf m = f ∧ (opcodeOf m).toNat = n := by
  simp [opcodesOf, mem_mnemonics]

/-- R65 (a): the sixteen opcodes. -/
theorem decode_unassigned_iff_notMem (w : Word) :
    decode w = .illegal .unassignedOpcode ↔
      w.toNat / 16777216 ∉ mnemonics.map fun m => (opcodeOf m).toNat := by
  rw [decode_unassigned_iff]
  simp [mem_mnemonics, eq_comm]

/-- R65 (b), format by format: the bits above the operand field of the format. -/
theorem decode_reserved_iff_opcodesOf (w : Word) :
    decode w = .illegal .reservedBits ↔
      (w.toNat / 16777216 ∈ opcodesOf .noOperand ∧ w.toNat % 16777216 ≠ 0) ∨
      (w.toNat / 16777216 ∈ opcodesOf .byteOperand ∧ w.toNat / 256 % 65536 ≠ 0) ∨
      (w.toNat / 16777216 ∈ opcodesOf .halfOperand ∧ w.toNat / 65536 % 256 ≠ 0) := by
  have noOperand : w.toNat % 16777216 ≠ 0 ↔ 2 ^ 0 ≤ w.toNat % 16777216 := by omega
  have byteOperand : w.toNat / 256 % 65536 ≠ 0 ↔ 2 ^ 8 ≤ w.toNat % 16777216 := by omega
  have halfOperand : w.toNat / 65536 % 256 ≠ 0 ↔ 2 ^ 16 ≤ w.toNat % 16777216 := by omega
  rw [decode_reserved_iff, noOperand, byteOperand, halfOperand]
  simp only [mem_opcodesOf]
  constructor
  · rintro ⟨m, opc, high⟩
    cases hf : formatOf m <;> rw [hf] at high
    · exact .inl ⟨⟨m, hf, opc.symm⟩, high⟩
    · exact .inr (.inl ⟨⟨m, hf, opc.symm⟩, high⟩)
    · exact .inr (.inr ⟨⟨m, hf, opc.symm⟩, high⟩)
  · rintro (⟨⟨m, hf, opc⟩, high⟩ | ⟨⟨m, hf, opc⟩, high⟩ | ⟨⟨m, hf, opc⟩, high⟩) <;>
      exact ⟨m, opc.symm, hf ▸ high⟩

/-- A step on an illegal word records fault 1 with the word, or drops it while faulted. -/
theorem step_illegal {s : State} {w : Word} {rest : List HostEvent} {r : Illegal}
    (hp : s.pending = .command w :: rest) (hd : decode w = .illegal r) :
    step s = illegalCommand w (s.setPending rest) :=
  (step_command hp).trans (execWord_illegal hd _)

/-- Settles O8: by the two cases of the decoder, and the fault that an illegal word raises. -/
theorem illegalInExactlyTwoCases : Obligations.IllegalInExactlyTwoCases := by
  refine ⟨decode_unassigned_iff_notMem, fun w => ?_, fun s w rest r hp hd => ?_⟩
  · rw [decode_reserved_iff_opcodesOf, ← List.mem_singleton (b := 0x30)]
    rfl
  · rw [step_illegal hp hd]
    exact ⟨illegalCommand_ready (s := s.setPending rest) (w := w),
      illegalCommand_faulted (s := s.setPending rest) (w := w)⟩

/-! ### The legal words -/

/-- The words of a row: its opcode with every value of the operand field. -/
def rowWords (m : Mnemonic) : List Word :=
  (List.range (2 ^ fieldWidth (formatOf m))).map fun v =>
    BitVec.ofNat 32 ((opcodeOf m).toNat * 16777216 + v)

/-- The words of all sixteen rows. -/
def legalWords : List Word := mnemonics.flatMap rowWords

theorem rowWord_toNat (m : Mnemonic) {v : Nat} (hv : v < 2 ^ fieldWidth (formatOf m)) :
    (BitVec.ofNat 32 ((opcodeOf m).toNat * 16777216 + v)).toNat =
      (opcodeOf m).toNat * 16777216 + v ∧ v < 16777216 := by
  have width : 2 ^ fieldWidth (formatOf m) ≤ 16777216 := by cases m <;> decide
  have opc : (opcodeOf m).toNat < 256 := (opcodeOf m).isLt
  rw [BitVec.toNat_ofNat]
  omega

theorem mem_rowWords {m : Mnemonic} {w : Word} : w ∈ rowWords m ↔ InRow m w := by
  simp only [rowWords, List.mem_map, List.mem_range]
  constructor
  · rintro ⟨v, hv, rfl⟩
    obtain ⟨number, small⟩ := rowWord_toNat m hv
    unfold InRow
    rw [number]
    omega
  · rintro ⟨opc, low⟩
    refine ⟨w.toNat % 16777216, low, BitVec.eq_of_toNat_eq ?_⟩
    rw [(rowWord_toNat m low).1]
    omega

theorem rowWords_nodup (m : Mnemonic) : (rowWords m).Nodup := by
  refine List.Nodup.map_on (fun v hv v' hv' h => ?_) List.nodup_range
  have number := (rowWord_toNat m (List.mem_range.mp hv)).1
  rw [h, (rowWord_toNat m (List.mem_range.mp hv')).1] at number
  omega

theorem mem_legalWords {w : Word} : w ∈ legalWords ↔ ∃ m, InRow m w := by
  simp [legalWords, mem_mnemonics, mem_rowWords]

/-- No word is in two rows, so the rows have no word in common. -/
theorem legalWords_nodup : legalWords.Nodup := by
  have rows : mnemonics.Nodup := by decide
  refine List.nodup_flatMap.mpr ⟨fun m _ => rowWords_nodup m, rows.imp fun distinct w hw hw' => ?_⟩
  exact distinct ((mem_rowWords.mp hw).unique (mem_rowWords.mp hw'))

/-- R66: eleven rows of one word, four of 256 and one of 65536. -/
theorem legalWords_length : legalWords.length = 66571 := by
  simp only [legalWords, rowWords, List.length_flatMap, List.length_map, List.length_range]
  rfl

/-- Settles O11: the list is that of the words of the sixteen rows. -/
theorem legalWordsCounted : Obligations.LegalWordsCounted :=
  ⟨legalWords, legalWords_nodup, legalWords_length,
    fun w => (legal_iff_inRow w).trans mem_legalWords.symm⟩

/-! ### Written commands -/

/-- An operand that fits the field is read back from it unchanged (R62, R68). -/
theorem operandField_of_fits {f : Format} {o : Option Nat} (h : f.fits o = true) :
    operandField f (BitVec.ofNat 32 (o.getD 0)) = o := by
  cases f <;> cases o
  case noOperand.none => rfl
  case byteOperand.some v | halfOperand.some v =>
    simp only [Format.fits, decide_eq_true_eq] at h
    simp only [operandField, Option.getD_some, BitVec.toNat_ofNat, Option.some_inj]
    omega
  all_goals exact Bool.noConfusion h

/-- Settles O13: the command that `assemble` forms has the mnemonic, and the operand when it fits. -/
theorem assemblesExactlyWhatFits : Obligations.AssemblesExactlyWhatFits := by
  intro c i
  by_cases fits : c.wellFormed = true
  · rw [assemble, if_pos fits, Option.some_inj, commandOf_eq_iff, operandField_of_fits fits]
    simp only [fits, true_and]
  · simp [assemble, fits]

end Sys2Proof.Machine
end

section
/-!
Responses (spec 30_encoding R70): a command of the responding kind that executes returns exactly
one, and nothing else returns any.
-/

namespace Sys2Proof.Machine

theorem responds_iff (i : Instr) : i.responds = true ↔
    (i = .sysStat ∨ i = .sysFinfo ∨ i = .crcFin ∨ (∃ k, i = .crcRdt k) ∨ i = .adlFin ∨
      i = .outPop ∨ i = .outCnt) := by
  cases i <;> simp [Instr.responds]

/-- A command of the other kind returns no response. -/
theorem responses_of_silent {i : Instr} {s t : State} (hi : ¬ i.responds = true)
    (e : exec i s = .next t) : t.responses = s.responses := by
  have quiet {u : State} : unlessFaulted s (.next u) = .next t → u.responses = s.responses →
      t.responses = s.responses := of_unlessFaulted (P := (·.responses = s.responses)) rfl
  cases i with
  | sysStat | sysFinfo | crcFin | crcRdt k | adlFin | outPop | outCnt => exact absurd rfl hi
  | sysRst => cases e; rfl
  | crcUpd b => exact quiet e (tblReady_responses s)
  | frmBegin n =>
    exact of_execFrmBegin (P := (·.responses = s.responses)) rfl e (fun _ _ => rfl) rfl
  | frmData x =>
    exact of_execFrmData (P := (·.responses = s.responses)) rfl e (fun _ _ => rfl)
      (acceptByte_responses x s)
  | _ => exact quiet e rfl

/-- A command of the responding kind returns one response when it executes. -/
theorem response_of_responds {i : Instr} {s t : State} (hi : i.responds = true)
    (runs : s.flt = false ∨ i.runsFaulted = true) (e : exec i s = .next t) :
    ∃ r, t.responses = s.responses ++ [r] := by
  have answer {u : State} {v : Word} (ready : s.flt = false)
      (e : unlessFaulted s (.next (u.respond v)) = .next t) (hu : u.responses = s.responses) :
      ∃ r, t.responses = s.responses ++ [r] := by
    cases (unlessFaulted_ready ready _).symm.trans e
    exact ⟨v, congrArg (· ++ [v]) hu⟩
  cases i with
  | sysStat | sysFinfo => cases e; exact ⟨_, rfl⟩
  | crcRdt k => exact answer (runs.resolve_right Bool.false_ne_true) e (tblReady_responses s)
  | crcFin | adlFin | outPop | outCnt =>
    exact answer (runs.resolve_right Bool.false_ne_true) e rfl
  | _ => exact absurd hi Bool.false_ne_true

/-- A command that is dropped returns no response (R178). -/
theorem responses_of_dropped {i : Instr} {s t : State}
    (dropped : ¬ (s.flt = false ∨ i.runsFaulted = true)) (e : exec i s = .next t) :
    t.responses = s.responses := by
  obtain ⟨faulted, other⟩ := not_or.mp dropped
  rw [exec_faulted (Bool.eq_true_of_not_eq_false faulted)
    (Bool.eq_false_of_not_eq_true other)] at e
  cases e
  rfl

/-- Settles O34: by the kind of the command, and by whether it executes or is dropped. -/
theorem responsesAreOneOrNone : Obligations.ResponsesAreOneOrNone := by
  refine ⟨responds_iff, fun i s => ?_, fun s w rest r hp hd => ?_⟩
  · obtain ⟨t, e⟩ := exec_completes i s
    refine ⟨t, e, ?_⟩
    split
    case isTrue answers => exact response_of_responds answers.1 answers.2 e
    case isFalse silent =>
      by_cases kind : i.responds = true
      · exact responses_of_dropped (fun runs => silent ⟨kind, runs⟩) e
      · exact responses_of_silent kind e
  · obtain ⟨t, e⟩ := unlessFaulted_completes (s := s.setPending rest)
      ⟨(s.setPending rest).latch .illegalCmd w, rfl⟩
    exact ⟨t, (step_illegal hp hd).trans e,
      of_illegalCommand (s := s.setPending rest) (P := (·.responses = s.responses)) (w := w)
        rfl e fun _ _ => rfl⟩

end Sys2Proof.Machine
end

section
/-!
The table-driven update of the CRC register as a bit-serial one (spec 40_crc32 R81, R82, 20_memory
R53). A round is linear over XOR, and on a word whose low bit is zero it is the shift: so the eight
rounds act on the low byte as the table does and shift the rest.
-/

namespace Sys2Proof.Machine

/-- A round in one form for both cases: the shift, and the polynomial if the low bit is set. -/
theorem tblRound_eq (c : Word) :
    tblRound c = (c >>> 1) ^^^ if c.getLsbD 0 then crcPoly else 0#32 := by
  unfold tblRound
  split
  · rfl
  · exact BitVec.xor_zero.symm

/-- A round is linear over XOR. -/
theorem tblRound_xor (c d : Word) : tblRound (c ^^^ d) = tblRound c ^^^ tblRound d := by
  have poly (p q : Bool) : (if p ^^ q then crcPoly else 0#32) =
      (if p then crcPoly else 0#32) ^^^ if q then crcPoly else 0#32 := by
    cases p <;> cases q <;> decide
  rw [tblRound_eq, tblRound_eq c, tblRound_eq d, BitVec.getLsbD_xor, poly,
    BitVec.ushiftRight_xor_distrib]
  ac_rfl

theorem tblRounds_xor (k : Nat) (c d : Word) :
    tblRounds k (c ^^^ d) = tblRounds k c ^^^ tblRounds k d := by
  induction k generalizing c d with
  | zero => rfl
  | succ k ih => rw [tblRounds, tblRound_xor, ih, tblRounds, tblRounds]

/-- On a word whose low `k` bits are zero, `k` rounds are a shift. -/
theorem tblRounds_of_low_zero (k : Nat) {c : Word} (low : ∀ i < k, c.getLsbD i = false) :
    tblRounds k c = c >>> k := by
  induction k generalizing c with
  | zero => rw [tblRounds, BitVec.ushiftRight_zero]
  | succ k ih =>
    have round : tblRound c = c >>> 1 := by
      rw [tblRound, low 0 k.succ_pos, if_neg Bool.false_ne_true]
    have low' : ∀ i < k, (c >>> 1).getLsbD i = false := fun i hi => by
      rw [BitVec.getLsbD_ushiftRight]
      exact low (1 + i) (by omega)
    rw [tblRounds, round, ih low', ← BitVec.shiftRight_add, Nat.add_comm]

theorem zextByte_ushiftRight (b : Byte) : zextByte b >>> 8 = 0#32 := by
  ext i hi
  simp [zextByte]

/-- A word without its low byte: the low eight bits are zero. -/
theorem xor_lowByte_getLsbD (c : Word) {i : Nat} (hi : i < 8) :
    (c ^^^ zextByte (lowByte c)).getLsbD i = false := by
  have mask : ∀ j < 8, (0xFF#32).getLsbD j = true := by decide
  have inWord : i < 32 := by omega
  simp [lowByte, zextByte, mask i hi, hi, inWord]

/-- Settles O49: the rounds act on the low byte as the table does, and on the rest as the shift. -/
theorem tableUpdateIsBitSerial : Obligations.TableUpdateIsBitSerial := by
  intro r b
  change crcStep r b = tblRounds 8 (r ^^^ zextByte b)
  generalize hx : r ^^^ zextByte b = x
  have rest : (x ^^^ zextByte (lowByte x)) >>> 8 = r >>> 8 := by
    rw [← hx, BitVec.ushiftRight_xor_distrib, BitVec.ushiftRight_xor_distrib, zextByte_ushiftRight,
      zextByte_ushiftRight, BitVec.xor_zero, BitVec.xor_zero]
  calc crcStep r b
    _ = tblRounds 8 (zextByte (lowByte x)) ^^^ (r >>> 8) := by rw [crcStep, crcIndex, hx, tbl]
    _ = tblRounds 8 (zextByte (lowByte x)) ^^^ tblRounds 8 (x ^^^ zextByte (lowByte x)) := by
      rw [tblRounds_of_low_zero 8 fun i hi => xor_lowByte_getLsbD x hi, rest]
    _ = tblRounds 8 (zextByte (lowByte x) ^^^ (x ^^^ zextByte (lowByte x))) :=
      (tblRounds_xor 8 _ _).symm
    _ = tblRounds 8 x := by
      rw [BitVec.xor_comm x, ← BitVec.xor_assoc, BitVec.xor_self, BitVec.zero_xor]

end Sys2Proof.Machine
end

section
/-!
The CRC unit's commands (spec 40_crc32 R85 to R89): the whole next state of each, where the table is
valid or absent.
-/

namespace Sys2Proof.Machine

/-- `TblInit()` over a valid table changes nothing (R84). -/
theorem tblInit_of_built {s : State} (h : s.TableValid) (hv : s.tv = true) : s.tblInit = s := by
  rw [← tblReady_of_valid h, State.tblReady, if_pos hv]

/-- R87 over a valid table or none: the table is built and the register takes the byte. -/
theorem exec_crcUpd {s : State} (h : s.TableValid) (b : Byte) :
    exec (.crcUpd b) s = unlessFaulted s (.next (s.tblInit.setCrc (crcStep s.crc b))) := by
  change execCrcUpd b s = _
  rw [execCrcUpd, tblReady_of_valid h, tblRead_of_valid h, crcStep]

/-- R89 over a valid table or none: the table is built and the response is its entry. -/
theorem exec_crcRdt {s : State} (h : s.TableValid) (i : Byte) :
    exec (.crcRdt i) s = unlessFaulted s (.next (s.tblInit.respond (tbl i))) := by
  change execCrcRdt i s = _
  rw [execCrcRdt, tblReady_of_valid h, tblRead_of_valid h]

/-- R88: the response is the register with all bits inverted. -/
theorem exec_crcFin_ready {s : State} (hf : s.flt = false) :
    exec .crcFin s = .next (s.respond (s.crc ^^^ crcXorOut)) := unlessFaulted_ready hf _

/-- Settles O18: the command is `TblInit()`, gated by FLT. -/
theorem crcTinitBuildsTheTable : Obligations.CrcTinitBuildsTheTable := by
  refine ⟨rfl, fun s hf => ⟨crcTable, tableEntry_crcTable, unlessFaulted_ready hf _⟩,
    fun s h hv => ?_, fun s hf => exec_faulted hf rfl⟩
  change unlessFaulted s (.next s.tblInit) = _
  rw [tblInit_of_built h hv, unlessFaulted, ite_self]

/-- Settles O19: the command writes the register, gated by FLT. -/
theorem crcInitStartsAChecksum : Obligations.CrcInitStartsAChecksum :=
  ⟨rfl, fun _ hf => unlessFaulted_ready hf _, fun _ hf => exec_faulted hf rfl⟩

/-- Settles O20: the word is the one that `encode` writes; `exec_crcUpd` gives the next state. -/
theorem crcUpdFeedsOneByte : Obligations.CrcUpdFeedsOneByte :=
  ⟨fun b => decode_encode (.crcUpd b),
    fun _ b h hf => (exec_crcUpd h b).trans (unlessFaulted_ready hf _),
    fun _ _ hf => exec_faulted hf rfl⟩

/-- Settles O21: the command answers the inverted register, gated by FLT. -/
theorem crcFinReadsTheChecksum : Obligations.CrcFinReadsTheChecksum :=
  ⟨rfl, fun _ hf => exec_crcFin_ready hf, fun _ hf => exec_faulted hf rfl⟩

/-- Settles O22: the word is the one that `encode` writes; `exec_crcRdt` gives the next state. -/
theorem crcRdtReadsATableEntry : Obligations.CrcRdtReadsATableEntry :=
  ⟨fun i => decode_encode (.crcRdt i),
    fun _ i h hf => (exec_crcRdt h i).trans (unlessFaulted_ready hf _),
    fun _ _ hf => exec_faulted hf rfl⟩

end Sys2Proof.Machine
end

section
/-!
A CRC stream (spec 40_crc32 R88): after CRC.INIT or SYS.RST the register has taken exactly the bytes
that the CRC.UPD commands since then fed, whatever commands stood between, as long as none faulted.
-/

namespace Sys2Proof.Machine

/-- R178, R179: no command but SYS.RST ends a fault. -/
theorem exec_stays_faulted_of_ne {i : Instr} {s t : State} (hf : s.flt = true) (hi : i ≠ .sysRst)
    (e : exec i s = .next t) : t.flt = true := by
  cases i with
  | sysRst => exact absurd rfl hi
  | frmBegin n => rw [exec_faulted hf rfl] at e; cases e; exact hf
  | _ => exact exec_stays_faulted hf (by rfl) e

/-- Commands that end without a fault started without one, if there is no SYS.RST among them. -/
theorem ready_of_runCommands {is : List Instr} {s t : State} (his : .sysRst ∉ is)
    (e : runCommands is s = .next t) (hf : t.flt = false) : s.flt = false := by
  induction is generalizing s with
  | nil => cases e; exact hf
  | cons i is ih =>
    obtain ⟨hi, tail⟩ := List.ne_and_not_mem_of_not_mem_cons his
    obtain ⟨u, eu⟩ := exec_completes i s
    rw [runCommands_cons_next eu] at e
    refine Bool.eq_false_of_not_eq_true fun faulted => ?_
    exact Bool.noConfusion ((exec_stays_faulted_of_ne faulted hi.symm eu).symm.trans (ih tail e))

/-- The bytes fed are those of the first command, then those of the rest. -/
theorem crcBytesOf_cons (i : Instr) (is : List Instr) :
    crcBytesOf (i :: is) = crcBytesOf [i] ++ crcBytesOf is := by
  cases i <;> rfl

/-- The register holds `r`, and the table is valid or absent. -/
structure State.CrcAt (r : Word) (s : State) : Prop where
  crc : s.crc = r
  table : s.TableValid

/-- An unfaulted command other than CRC.INIT and SYS.RST feeds the register the byte of CRC.UPD, or
nothing. -/
theorem State.CrcAt.after_exec {i : Instr} {r : Word} {s t : State} (h : s.CrcAt r)
    (init : i ≠ .crcInit) (rst : i ≠ .sysRst) (hf : s.flt = false) (e : exec i s = .next t) :
    t.CrcAt (crcFeed r (crcBytesOf [i])) := by
  cases i with
  | crcInit => exact absurd rfl init
  | sysRst => exact absurd rfl rst
  | sysStat | sysFinfo => cases e; exact ⟨h.crc, h.table⟩
  | crcTinit => exact of_unlessFaulted h e ⟨h.crc, fun _ => rfl⟩
  | crcUpd b =>
    rw [exec_crcUpd h.table, unlessFaulted_ready hf] at e
    cases e
    exact ⟨congrArg (crcStep · b) h.crc, fun _ => rfl⟩
  | crcRdt k =>
    rw [exec_crcRdt h.table] at e
    exact of_unlessFaulted h e ⟨h.crc, fun _ => rfl⟩
  | frmBegin n => exact of_execFrmBegin h e (fun _ _ => ⟨h.crc, h.table⟩) ⟨h.crc, h.table⟩
  | frmData x =>
    exact of_execFrmData h e (fun _ _ => ⟨h.crc, h.table⟩)
      (by rw [acceptByte_eq]; exact ⟨h.crc, h.table⟩)
  | _ => exact of_unlessFaulted h e ⟨h.crc, h.table⟩

/-- The same over a list of commands that ends without a fault. -/
theorem State.CrcAt.after_runCommands {is : List Instr} {r : Word} {s t : State} (h : s.CrcAt r)
    (init : .crcInit ∉ is) (rst : .sysRst ∉ is) (e : runCommands is s = .next t)
    (hf : t.flt = false) : t.CrcAt (crcFeed r (crcBytesOf is)) := by
  have ready : s.flt = false := ready_of_runCommands rst e hf
  induction is generalizing r s with
  | nil => cases e; exact h
  | cons i is ih =>
    obtain ⟨hinit, init⟩ := List.ne_and_not_mem_of_not_mem_cons init
    obtain ⟨hrst, rst⟩ := List.ne_and_not_mem_of_not_mem_cons rst
    obtain ⟨u, eu⟩ := exec_completes i s
    rw [runCommands_cons_next eu] at e
    rw [crcBytesOf_cons, crcFeed_append]
    exact ih (h.after_exec hinit.symm hrst.symm ready eu) init rst e (ready_of_runCommands rst e hf)

/-- CRC.INIT, unless it is dropped, and SYS.RST leave the initial register. -/
theorem crcAt_initial {first : Instr} {s t : State} (valid : s.TableValid)
    (hfirst : first = .crcInit ∨ first = .sysRst) (e : exec first s = .next t)
    (hf : t.flt = false) : t.CrcAt crcInitial := by
  rcases hfirst with rfl | rfl
  · rcases unlessFaulted_next e with ⟨faulted, rfl⟩ | ⟨-, ⟨⟩⟩
    · exact Bool.noConfusion (hf.symm.trans faulted)
    · exact ⟨rfl, valid⟩
  · cases e
    exact ⟨rfl, fun hv => Bool.noConfusion hv⟩

/-- Settles O44: the first command leaves the initial register, the others feed it their bytes, and
CRC.FIN inverts it. -/
theorem crcFinCoversAllBytesSinceInit : Obligations.CrcFinCoversAllBytesSinceInit := by
  refine ⟨fun s hf => exec_crcFin_ready hf, ?_⟩
  intro s t first cmds valid hfirst init rst e hf
  obtain ⟨u, eu⟩ := exec_completes first s
  rw [runCommands_cons_next eu] at e
  have start := crcAt_initial valid hfirst eu (ready_of_runCommands rst e hf)
  have register : t.crc = crcFeed crcInitial (crcBytesOf cmds) :=
    (start.after_runCommands init rst e hf).crc
  have answer : t.crc ^^^ crcXorOut = crc32 (crcBytesOf cmds) := by rw [register, crc32]
  rw [exec_crcFin_ready hf, answer]
  rfl

end Sys2Proof.Machine
end

section
/-!
The CRC unit beside the other units (spec 40_crc32 R93), and the table built early or late (R84).
-/

namespace Sys2Proof.Machine

/-! ### Commands of the other units -/

/-- Changing the CRC unit's components and nothing else: the table and its flag are replaced, and
the register changed by `g`. -/
def State.mapCrcUnit (tab : Table) (tv : Bool) (g : Word → Word) (s : State) : State :=
  { s with t := tab, tv := tv, crc := g s.crc }

/-- A gated command commutes with a change that keeps FLT when its action does. -/
theorem unlessFaulted_mapNext {f : State → State} {s : State} {act act' : Result}
    (hf : (f s).flt = s.flt) (h : act' = mapNext f act) :
    unlessFaulted (f s) act' = mapNext f (unlessFaulted s act) := by
  rw [unlessFaulted, unlessFaulted, hf, h, mapNext_ite, mapNext_next]

theorem acceptByte_mapCrcUnit (x : Byte) (tab : Table) (tv : Bool) (g : Word → Word) (s : State) :
    acceptByte x (s.mapCrcUnit tab tv g) = (acceptByte x s).mapCrcUnit tab tv g := by
  rw [acceptByte_eq, acceptByte_eq]
  rfl

/-- A command of another unit neither reads nor writes the CRC unit's components (R93). -/
theorem exec_mapCrcUnit {i : Instr}
    (hi : i.ofAdlerUnit = true ∨ i.ofFramer = true ∨ i.ofQueue = true)
    (tab : Table) (tv : Bool) (g : Word → Word) (s : State) :
    exec i (s.mapCrcUnit tab tv g) = mapNext (State.mapCrcUnit tab tv g) (exec i s) := by
  cases i with
  | adlInit | adlUpd x | adlFin | outPop | outCnt => exact unlessFaulted_mapNext rfl rfl
  | frmBegin n =>
    apply unlessFaulted_mapNext rfl
    rw [mapNext_ite, mapNext_ite]
    rfl
  | frmData x =>
    apply unlessFaulted_mapNext rfl
    rw [mapNext_ite, mapNext_ite, acceptByte_mapCrcUnit]
    rfl
  | _ => simp [Instr.ofAdlerUnit, Instr.ofFramer, Instr.ofQueue] at hi

/-! ### Commands of the CRC unit -/

/-- The table that `TblRead` reads (R84): the one that is there when its flag is set, otherwise the
one that it builds. -/
def readyTable (tab : Table) (tv : Bool) : Table := if tv then tab else crcTable

theorem tblReady_eq (s : State) : s.tblReady = { s with t := readyTable s.t s.tv, tv := true } := by
  rcases tblReady_cases s with ⟨hv, e⟩ | ⟨hv, e⟩ <;> rw [e, hv, readyTable]
  · rw [if_pos rfl, ← hv]
  · rfl

/-- No CRC command is among the three that a faulted block executes (R178). -/
theorem runsFaulted_of_ofCrcUnit {i : Instr} (hi : i.ofCrcUnit = true) :
    i.runsFaulted = false := by
  cases i with
  | sysRst | sysStat | sysFinfo => exact Bool.noConfusion hi
  | _ => rfl

/-- An unfaulted CRC command's next state, chosen from the CRC unit's components before the state is
given. -/
theorem exec_of_ofCrcUnit {i : Instr} (hi : i.ofCrcUnit = true) (tab : Table) (tv : Bool)
    (crc : Word) :
    ∃ (tab' : Table) (tv' : Bool) (crc' : Word) (rs : List Word), ∀ s : State,
      s.flt = false → s.t = tab → s.tv = tv → s.crc = crc →
      exec i s = .next { s with
        t := tab', tv := tv', crc := crc', responses := s.responses ++ rs } := by
  cases i with
  | crcTinit =>
    refine ⟨crcTable, true, crc, [], ?_⟩
    rintro s hf rfl rfl rfl
    rw [List.append_nil]
    exact unlessFaulted_ready hf _
  | crcInit =>
    refine ⟨tab, tv, crcInitial, [], ?_⟩
    rintro s hf rfl rfl rfl
    rw [List.append_nil]
    exact unlessFaulted_ready hf _
  | crcUpd b =>
    refine ⟨readyTable tab tv, true,
      tableEntry (readyTable tab tv) (crcIndex crc b) ^^^ (crc >>> 8), [], ?_⟩
    rintro s hf rfl rfl rfl
    change execCrcUpd b s = _
    rw [execCrcUpd, unlessFaulted_ready hf, State.tblRead, tblReady_eq, List.append_nil]
    rfl
  | crcFin =>
    refine ⟨tab, tv, crc, [crc ^^^ crcXorOut], ?_⟩
    rintro s hf rfl rfl rfl
    exact exec_crcFin_ready hf
  | crcRdt k =>
    refine ⟨readyTable tab tv, true, crc, [tableEntry (readyTable tab tv) k], ?_⟩
    rintro s hf rfl rfl rfl
    change execCrcRdt k s = _
    rw [execCrcRdt, unlessFaulted_ready hf, State.tblRead, tblReady_eq]
    rfl
  | _ => exact Bool.noConfusion hi

/-- Settles O36: the other units' commands commute with every change of the CRC unit, and a CRC
command is dropped while faulted and otherwise follows from the CRC unit's components. -/
theorem crcUnitStandsAlone : Obligations.CrcUnitStandsAlone := by
  refine ⟨fun i s tab tv crc hi => exec_mapCrcUnit hi tab tv (fun _ => crc) s, ?_⟩
  intro i flt tab tv crc hi
  cases flt with
  | false => exact exec_of_ofCrcUnit hi tab tv crc
  | true =>
    refine ⟨tab, tv, crc, [], ?_⟩
    rintro s hf rfl rfl rfl
    rw [exec_faulted hf (runsFaulted_of_ofCrcUnit hi), List.append_nil]

/-! ### The table built early or late -/

/-- A gated command comes to the same with the table built before it or after it when its action
does. -/
theorem tblInit_unlessFaulted {s : State} {act act' : Result}
    (h : mapNext State.tblInit act' = mapNext State.tblInit act) :
    mapNext State.tblInit (unlessFaulted s.tblInit act') =
      mapNext State.tblInit (unlessFaulted s act) := by
  cases hf : s.flt
  · rwa [unlessFaulted_ready hf, unlessFaulted_ready (s := s.tblInit) hf]
  · rw [unlessFaulted_faulted hf, unlessFaulted_faulted (s := s.tblInit) hf]
    rfl

/-- Building the table twice is building it once (R84). -/
theorem mapNext_tblInit_idem (r : Result) :
    mapNext State.tblInit (mapNext State.tblInit r) = mapNext State.tblInit r := by
  cases r <;> rfl

/-- Any command but SYS.STAT comes to the same with the table built before it or after it. -/
theorem tblInit_exec {i : Instr} {s : State} (valid : s.TableValid) (hi : i ≠ .sysStat) :
    mapNext State.tblInit (exec i s.tblInit) = mapNext State.tblInit (exec i s) := by
  have early : s.tblInit.TableValid := fun _ => rfl
  cases i with
  | sysStat => exact absurd rfl hi
  | sysRst | sysFinfo => rfl
  | crcUpd b =>
    rw [exec_crcUpd early, exec_crcUpd valid]
    exact tblInit_unlessFaulted rfl
  | crcRdt k =>
    rw [exec_crcRdt early, exec_crcRdt valid]
    exact tblInit_unlessFaulted rfl
  | frmBegin _ | frmData _ =>
    exact (congrArg (mapNext State.tblInit)
      (exec_mapCrcUnit (.inr (.inl rfl)) crcTable true id s)).trans (mapNext_tblInit_idem _)
  | _ => exact tblInit_unlessFaulted rfl

/-- Bit 0 of STATUS is TV (R29). -/
theorem status_getLsbD_zero (s : State) : s.status.getLsbD 0 = s.tv := by
  simp [State.status, bitWord]

/-- The other 31 bits of STATUS do not depend on TV (R29). -/
theorem status_tblInit_upper (s : State) :
    s.tblInit.status.extractLsb' 1 31 = s.status.extractLsb' 1 31 := by
  ext i hi
  simp [State.status, State.fbsy, State.one, bitWord]

/-- Settles O54: every other command comes to the same, and STATUS differs in its bit 0 alone. -/
theorem eagerAndLazyTablesAgree : Obligations.EagerAndLazyTablesAgree :=
  ⟨fun _ _ valid hi => tblInit_exec valid hi, fun s => ⟨s.tblInit.status, s.status, rfl, rfl,
    status_tblInit_upper s, status_getLsbD_zero s.tblInit, status_getLsbD_zero s⟩⟩

end Sys2Proof.Machine
end

section
/-!
The Adler unit's commands (spec 41_adler32 R103 to R106): the whole next state of each, and the sums
as integers.
-/

namespace Sys2Proof.Machine

/-- R104: the two sums take the byte. -/
theorem exec_adlUpd_ready {s : State} (hf : s.flt = false) (x : Byte) :
    exec (.adlUpd x) s = .next (s.setSums (adlerStep (s.a, s.b) x)) := unlessFaulted_ready hf _

/-- R105: the response is the two sums in one word. -/
theorem exec_adlFin_ready {s : State} (hf : s.flt = false) :
    exec .adlFin s = .next (s.respond (adlerWord (s.a, s.b))) := unlessFaulted_ready hf _

/-- The remainder of a sum of two reduced numbers takes at most one subtraction (R106). -/
theorem add_mod_of_reduced {m n : Nat} (hm : m < 65521) (hn : n < 65521) :
    (m + n) % 65521 = if m + n < 65521 then m + n else m + n - 65521 := by
  split
  case isTrue small => exact Nat.mod_eq_of_lt small
  case isFalse large =>
    rw [Nat.mod_eq_sub_mod (not_lt.mp large)]
    exact Nat.mod_eq_of_lt (by omega)

/-- Settles O23: the command writes the two sums, gated by FLT. -/
theorem adlInitStartsAChecksum : Obligations.AdlInitStartsAChecksum :=
  ⟨rfl, fun _ hf => unlessFaulted_ready hf _, fun _ hf => exec_faulted hf rfl⟩

/-- Settles O24: the word is the one that `encode` writes; `adlerStep_toNat` gives the sums as
integers. -/
theorem adlUpdFeedsOneByte : Obligations.AdlUpdFeedsOneByte := by
  refine ⟨fun x => decode_encode (.adlUpd x), fun s x hf => ?_, fun _ _ hf => exec_faulted hf rfl⟩
  obtain ⟨ha, hb⟩ := adlerStep_toNat (s.a, s.b) x
  exact ⟨_, _, exec_adlUpd_ready hf x, ha, by rw [hb, ha]⟩

/-- Settles O25: the command answers the two sums, which are the halves of the word. -/
theorem adlFinReadsTheChecksum : Obligations.AdlFinReadsTheChecksum :=
  ⟨rfl, fun _ hf => ⟨_, exec_adlFin_ready hf, adlerWord_toNat _⟩, fun _ hf => exec_faulted hf rfl⟩

/-- Settles O51: a byte and the new sum A are reduced numbers too, so each remainder takes at most
one subtraction. -/
theorem oneSubtractionReducesASum : Obligations.OneSubtractionReducesASum := by
  intro a b x ha hb
  obtain ⟨newA, newB⟩ := adlerStep_toNat (a, b) x
  obtain ⟨reducedA, -⟩ := adlerStep_reduced (a, b) x
  have byte : x.toNat < 65521 := x.isLt.trans (by decide)
  rw [← newA] at newB
  exact ⟨_, _, rfl, newA.trans (add_mod_of_reduced ha byte),
    newB.trans (add_mod_of_reduced hb reducedA)⟩

end Sys2Proof.Machine
end

section
/-!
The Adler unit beside the other units (spec 41_adler32 R109, 10_state R32).
-/

namespace Sys2Proof.Machine

/-! ### Commands of the other units -/

theorem tblReady_setSums (s : State) (p : Half × Half) :
    (s.setSums p).tblReady = s.tblReady.setSums p := by
  rw [tblReady_eq, tblReady_eq]
  rfl

theorem tblRead_setSums (s : State) (p : Half × Half) (i : Byte) :
    (s.setSums p).tblRead i = s.tblRead i := by
  rw [State.tblRead, tblReady_setSums]
  rfl

theorem acceptByte_setSums (x : Byte) (s : State) (p : Half × Half) :
    acceptByte x (s.setSums p) = (acceptByte x s).setSums p := by
  rw [acceptByte_eq, acceptByte_eq]
  rfl

/-- A command of another unit neither reads nor writes the Adler unit's sums (R109). -/
theorem exec_setSums {i : Instr}
    (hi : i.ofCrcUnit = true ∨ i.ofFramer = true ∨ i.ofQueue = true)
    (s : State) (p : Half × Half) :
    exec i (s.setSums p) = mapNext (·.setSums p) (exec i s) := by
  have gated {act act' : Result} (h : act' = mapNext (·.setSums p) act) :
      unlessFaulted (s.setSums p) act' = mapNext (·.setSums p) (unlessFaulted s act) :=
    unlessFaulted_mapNext (f := (·.setSums p)) rfl h
  cases i with
  | crcTinit | crcInit | crcFin | outPop | outCnt => exact gated rfl
  | crcUpd b | crcRdt k =>
    apply gated
    rw [tblReady_setSums, tblRead_setSums]
    rfl
  | frmBegin n =>
    apply gated
    rw [mapNext_ite, mapNext_ite]
    rfl
  | frmData x =>
    apply gated
    rw [mapNext_ite, mapNext_ite, acceptByte_setSums]
    rfl
  | _ => simp [Instr.ofCrcUnit, Instr.ofFramer, Instr.ofQueue] at hi

/-! ### Commands of the Adler unit -/

/-- No Adler command is among the three that a faulted block executes (R178). -/
theorem runsFaulted_of_ofAdlerUnit {i : Instr} (hi : i.ofAdlerUnit = true) :
    i.runsFaulted = false := by
  cases i with
  | sysRst | sysStat | sysFinfo => exact Bool.noConfusion hi
  | _ => rfl

/-- An unfaulted Adler command's next state, chosen from the two sums before the state is given. -/
theorem exec_of_ofAdlerUnit {i : Instr} (hi : i.ofAdlerUnit = true) (p : Half × Half) :
    ∃ (p' : Half × Half) (rs : List Word), ∀ s : State, s.flt = false → (s.a, s.b) = p →
      exec i s = .next { s.setSums p' with responses := s.responses ++ rs } := by
  cases i with
  | adlInit =>
    refine ⟨adlerInitial, [], fun s hf _ => ?_⟩
    rw [List.append_nil]
    exact unlessFaulted_ready hf _
  | adlUpd x =>
    refine ⟨adlerStep p x, [], ?_⟩
    rintro s hf rfl
    rw [List.append_nil]
    exact exec_adlUpd_ready hf x
  | adlFin =>
    refine ⟨p, [adlerWord p], ?_⟩
    rintro s hf rfl
    exact exec_adlFin_ready hf
  | _ => exact Bool.noConfusion hi

/-- Settles O35: the other units' commands commute with every change of the two sums, and an Adler
command is dropped while faulted and otherwise follows from the sums. -/
theorem adlerUnitStandsAlone : Obligations.AdlerUnitStandsAlone := by
  refine ⟨fun i s a b hi => exec_setSums hi s (a, b), fun i flt a b hi => ?_⟩
  cases flt with
  | false =>
    obtain ⟨p, rs, next⟩ := exec_of_ofAdlerUnit hi (a, b)
    refine ⟨p.1, p.2, rs, ?_⟩
    rintro s hf rfl rfl
    exact next s hf rfl
  | true =>
    refine ⟨a, b, [], ?_⟩
    rintro s hf rfl rfl
    rw [exec_faulted hf (runsFaulted_of_ofAdlerUnit hi), List.append_nil]

end Sys2Proof.Machine
end

section
/-!
An Adler stream (spec 41_adler32 R105): after ADL.INIT or SYS.RST the sums have taken exactly the
bytes that the ADL.UPD commands since then fed, whatever commands stood between, as long as none
faulted.
-/

namespace Sys2Proof.Machine

/-- The bytes fed are those of the first command, then those of the rest. -/
theorem adlBytesOf_cons (i : Instr) (is : List Instr) :
    adlBytesOf (i :: is) = adlBytesOf [i] ++ adlBytesOf is := by
  cases i <;> rfl

/-- A command of another unit leaves the sums: it commutes with writing them back as they are. -/
theorem sums_of_otherUnit {i : Instr} {s t : State}
    (hi : i.ofCrcUnit = true ∨ i.ofFramer = true ∨ i.ofQueue = true) (e : exec i s = .next t) :
    (t.a, t.b) = (s.a, s.b) := by
  have same : exec i s = mapNext (·.setSums (s.a, s.b)) (exec i s) := exec_setSums hi s (s.a, s.b)
  rw [e, mapNext_next, Host.Outcome.next.injEq] at same
  rw [same]
  rfl

/-- An unfaulted command other than ADL.INIT and SYS.RST feeds the sums the byte of ADL.UPD, or
nothing. -/
theorem sums_after_exec {i : Instr} {s t : State} (init : i ≠ .adlInit) (rst : i ≠ .sysRst)
    (hf : s.flt = false) (e : exec i s = .next t) :
    (t.a, t.b) = adlerFeed (s.a, s.b) (adlBytesOf [i]) := by
  cases i with
  | adlInit => exact absurd rfl init
  | sysRst => exact absurd rfl rst
  | sysStat | sysFinfo => cases e; rfl
  | sysNop => cases (unlessFaulted_ready hf _).symm.trans e; rfl
  | adlUpd x => cases (exec_adlUpd_ready hf x).symm.trans e; rfl
  | adlFin => cases (exec_adlFin_ready hf).symm.trans e; rfl
  | crcTinit | crcInit | crcUpd b | crcFin | crcRdt k => exact sums_of_otherUnit (.inl rfl) e
  | frmBegin n | frmData x => exact sums_of_otherUnit (.inr (.inl rfl)) e
  | outPop | outCnt => exact sums_of_otherUnit (.inr (.inr rfl)) e

/-- The same over a list of commands that ends without a fault. -/
theorem sums_after_runCommands {is : List Instr} {s t : State} (init : .adlInit ∉ is)
    (rst : .sysRst ∉ is) (e : runCommands is s = .next t) (hf : t.flt = false) :
    (t.a, t.b) = adlerFeed (s.a, s.b) (adlBytesOf is) := by
  have ready : s.flt = false := ready_of_runCommands rst e hf
  induction is generalizing s with
  | nil => cases e; rfl
  | cons i is ih =>
    obtain ⟨hinit, init⟩ := List.ne_and_not_mem_of_not_mem_cons init
    obtain ⟨hrst, rst⟩ := List.ne_and_not_mem_of_not_mem_cons rst
    obtain ⟨u, eu⟩ := exec_completes i s
    rw [runCommands_cons_next eu] at e
    rw [adlBytesOf_cons, adlerFeed_append, ← sums_after_exec hinit.symm hrst.symm ready eu]
    exact ih init rst e (ready_of_runCommands rst e hf)

/-- ADL.INIT, unless it is dropped, and SYS.RST leave the initial sums. -/
theorem sums_initial {first : Instr} {s t : State} (hfirst : first = .adlInit ∨ first = .sysRst)
    (e : exec first s = .next t) (hf : t.flt = false) : (t.a, t.b) = adlerInitial := by
  rcases hfirst with rfl | rfl
  · rcases unlessFaulted_next e with ⟨faulted, rfl⟩ | ⟨-, ⟨⟩⟩
    · exact Bool.noConfusion (hf.symm.trans faulted)
    · rfl
  · cases e
    rfl

/-- Settles O45: the first command leaves the initial sums, the others feed them their bytes, and
ADL.FIN answers them in one word. -/
theorem adlFinCoversAllBytesSinceInit : Obligations.AdlFinCoversAllBytesSinceInit := by
  refine ⟨fun s hf => exec_adlFin_ready hf, ?_⟩
  intro s t first cmds hfirst init rst e hf
  obtain ⟨u, eu⟩ := exec_completes first s
  rw [runCommands_cons_next eu] at e
  have start : (u.a, u.b) = adlerInitial := sums_initial hfirst eu (ready_of_runCommands rst e hf)
  have fed : (t.a, t.b) = adlerFeed (u.a, u.b) (adlBytesOf cmds) :=
    sums_after_runCommands init rst e hf
  rw [exec_adlFin_ready hf, fed, start, ← adler32]
  rfl

end Sys2Proof.Machine
end

section
/-!
The bytes the framer pushes, as numbers (spec 42_stored_framer R115 to R118, 20_memory R43), and its
two commands with the tests each makes before it pushes (R122, R123).
-/

namespace Sys2Proof.Machine

/-! ### Byte orders -/

/-- Numbers that agree modulo 256 are the same byte. -/
theorem byte_ofNat_congr {m n : Nat} (h : m % 256 = n % 256) :
    BitVec.ofNat 8 m = BitVec.ofNat 8 n := BitVec.eq_of_toNat_eq (by simpa using h)

/-- Low byte first (R43). -/
theorem le16_eq (v : Half) : le16 v = [v.toNat, v.toNat / 256].map (BitVec.ofNat 8) := by
  simp [le16, BitVec.extractLsb', Nat.shiftRight_eq_div_pow]

/-- Most significant byte first (R43). -/
theorem be32_eq (v : Word) : be32 v =
    [v.toNat / 16777216, v.toNat / 65536, v.toNat / 256, v.toNat].map (BitVec.ofNat 8) := by
  simp [be32, BitVec.extractLsb', Nat.shiftRight_eq_div_pow]

/-- Counted in bytes, `be32` puts byte `3 - j` of the number at index `j`. -/
theorem be32_getElem? (v : Word) {j : Nat} (hj : j < 4) :
    (be32 v)[j]? = some (BitVec.ofNat 8 (v.toNat / 256 ^ (3 - j) % 256)) := by
  rw [be32_eq]
  interval_cases j <;> exact congrArg some (byte_ofNat_congr (by omega))

/-- The trailer's bytes are those of the sum `b`, then those of the sum `a` (R100). -/
theorem be32_adlerWord (p : Half × Half) : be32 (adlerWord p) =
    [p.2.toNat / 256, p.2.toNat % 256, p.1.toNat / 256, p.1.toNat % 256].map
      (BitVec.ofNat 8) := by
  have low : p.1.toNat < 65536 := p.1.isLt
  rw [be32_eq, adlerWord_toNat]
  simp only [List.map, List.cons.injEq, and_true]
  refine ⟨byte_ofNat_congr ?_, byte_ofNat_congr ?_, byte_ofNat_congr ?_, byte_ofNat_congr ?_⟩ <;>
    omega

/-- The leading bytes: the two headers, the length and its complement (R116 to R118). -/
theorem frameHead_eq (n : Half) : frameHead n =
    [0x78, 0x01, 0x01, n.toNat % 256, n.toNat / 256, 255 - n.toNat % 256,
      255 - n.toNat / 256].map (BitVec.ofNat 8) := by
  have bound : n.toNat < 65536 := n.isLt
  have complement : (~~~n).toNat = 65535 - n.toNat := BitVec.toNat_not
  have low : BitVec.ofNat 8 n.toNat = BitVec.ofNat 8 (n.toNat % 256) :=
    byte_ofNat_congr (by omega)
  have lowNot : BitVec.ofNat 8 (65535 - n.toNat) = BitVec.ofNat 8 (255 - n.toNat % 256) :=
    byte_ofNat_congr (by omega)
  have highNot : (65535 - n.toNat) / 256 = 255 - n.toNat / 256 := by omega
  rw [frameHead, le16_eq, le16_eq, complement]
  simp only [List.map, low, lowNot, highNot]
  rfl

/-- The trailer of the empty payload follows the head when there is no payload byte to come. -/
theorem beginBytes_eq_append (n : Half) :
    beginBytes n = frameHead n ++ if n = 0 then [0x00, 0x00, 0x00, 0x01] else [] := by
  unfold beginBytes
  split
  · rfl
  · exact (List.append_nil _).symm

/-! ### The commands of the framer -/

section
variable {s : State} (hf : s.flt = false)
include hf

/-- R122: a frame that is open, then too little room, keep `FRM.BEGIN` from opening one. -/
theorem exec_frmBegin_ready (n : Half) : exec (.frmBegin n) s =
    if s.rem ≠ 0 then .next (s.latch .frmOpen (encode (.frmBegin n)))
    else if s.outFree < beginNeed n then .next (s.latch .outOvf (encode (.frmBegin n)))
    else .next (openFrame n s) := unlessFaulted_ready hf _

/-- R123: no open frame, then too little room, keep `FRM.DATA` from accepting its byte. -/
theorem exec_frmData_ready (x : Byte) : exec (.frmData x) s =
    if s.rem = 0 then .next (s.latch .frmClosed (encode (.frmData x)))
    else if s.outFree < dataNeed s.rem then .next (s.latch .outOvf (encode (.frmData x)))
    else .next (acceptByte x s) := unlessFaulted_ready hf _

end

/-- Settles O26: R122's two tests in their order, with the pushed bytes written as numbers. -/
theorem frmBeginOpensAFrame : Obligations.FrmBeginOpensAFrame := by
  refine ⟨fun n => decode_encode (.frmBegin n), fun s n hf => ?_, fun _ _ hf => exec_faulted hf rfl⟩
  rw [exec_frmBegin_ready hf, openFrame_eq, beginBytes_eq_append, frameHead_eq, ← List.append_assoc]
  rfl

/-- Settles O27: R123's two tests in their order; `adlerStep_toNat` gives the sums as integers. -/
theorem frmDataSuppliesAByte : Obligations.FrmDataSuppliesAByte := by
  refine ⟨fun x => decode_encode (.frmData x), ?_, ?_, ?_, fun _ _ hf => exec_faulted hf rfl⟩
  · intro s x hf closed
    rw [exec_frmData_ready hf, if_pos closed]
    rfl
  · intro s x hf hr (full : s.outFree < dataNeed s.rem)
    rw [exec_frmData_ready hf, if_neg hr, if_pos full]
    rfl
  · intro s x hf hr (room : dataNeed s.rem ≤ s.outFree)
    obtain ⟨sumA, sumB⟩ := adlerStep_toNat (s.fa, s.fb) x
    have one := toNat_sub_one hr
    refine ⟨_, _, s.rem - 1, _, ?_, sumA, by rw [sumB, sumA], by omega, rfl⟩
    rw [exec_frmData_ready hf, if_neg hr, if_neg room.not_gt, acceptByte_eq, be32_adlerWord,
      List.append_assoc]
    rfl

end Sys2Proof.Machine
end

section
/-!
A whole frame (spec 42_stored_framer R115, R124, R126): `zstore` offset by offset, and the frame
that `State.FrameSoFar` describes once its payload is complete.
-/

namespace Sys2Proof.Machine

/-! ### The layout of `zstore` -/

section
variable (s : List Byte)

theorem zstore_length : (zstore s).length = s.length + 11 := by
  rw [zstore, List.length_append, List.length_append, frameHead_length, be32_length]
  omega

/-- Offsets 0 to 6: the leading bytes, by the length that they state. -/
theorem zstore_getElem?_head (hs : s.length ≤ 65535) {j : Nat} (hj : j < 7) :
    (zstore s)[j]? = ([0x78, 0x01, 0x01, s.length % 256, s.length / 256, 255 - s.length % 256,
      255 - s.length / 256].map (BitVec.ofNat 8))[j]? := by
  have stated : (BitVec.ofNat 16 s.length).toNat = s.length :=
    Nat.mod_eq_of_lt (Nat.lt_succ_of_le hs)
  rw [zstore, List.append_assoc, List.getElem?_append_left hj, frameHead_eq, stated]

/-- From offset 7: the payload. -/
theorem zstore_getElem?_payload {k : Nat} (hk : k < s.length) : (zstore s)[7 + k]? = s[k]? := by
  rw [zstore, List.append_assoc, List.getElem?_append_right (Nat.le_add_right 7 k),
    frameHead_length, Nat.add_sub_cancel_left, List.getElem?_append_left hk]

/-- After the payload: the trailer. -/
theorem zstore_getElem?_trailer (j : Nat) :
    (zstore s)[7 + s.length + j]? = (be32 (adler32 s))[j]? := by
  have before : (frameHead (BitVec.ofNat 16 s.length) ++ s).length = 7 + s.length := by
    rw [List.length_append, frameHead_length]
  rw [zstore, ← before, List.getElem?_append_right (Nat.le_add_right _ j),
    Nat.add_sub_cancel_left]

end

/-- Settles O50: the head, the payload and the trailer, each at its offsets. -/
theorem zstoreLayout : Obligations.ZstoreLayout := by
  intro s hs
  have head {j : Nat} (hj : j < 7) := zstore_getElem?_head s hs hj
  exact ⟨zstore_length s, head (by decide), head (by decide), head (by decide), head (by decide),
    head (by decide), head (by decide), head (by decide), fun _ => zstore_getElem?_payload s,
    fun j hj => (zstore_getElem?_trailer s j).trans (be32_getElem? _ hj)⟩

/-! ### The frame once its payload is complete -/

/-- With its whole payload supplied, a frame is `zstore` of it (R115). -/
theorem frameBytes_complete {n : Half} {bs : List Byte} (h : bs.length = n.toNat) :
    frameBytes n bs = zstore bs := by
  rw [frameBytes, if_pos h, zstore, h, BitVec.ofNat_toNat, BitVec.setWidth_eq]

/-- R126: the whole frame needs room for eleven bytes more than its payload. -/
theorem beginNeed_add_payloadNeed (n : Half) :
    beginNeed n + payloadNeed n n.toNat = n.toNat + 11 := by
  by_cases hn : n = 0
  · subst hn; rfl
  · have pos : 0 < n.toNat := Nat.pos_of_ne_zero fun e => hn (BitVec.eq_of_toNat_eq e)
    rw [beginNeed, payloadNeed, if_neg hn, if_pos ⟨pos, rfl⟩]
    omega

/-- Settles O46: with room from the start no command takes a fault, and without a fault the commands
keep `State.FrameSoFar`, whose bytes are `zstore` of the payload once all of it is supplied. -/
theorem frameIsZstoreOfItsPayload : Obligations.FrameIsZstoreOfItsPayload := by
  intro s n cmds hf hr hcmds whole
  refine ⟨fun room => ?_, fun t e hft => ?_⟩
  · have need := beginNeed_add_payloadNeed n
    have opens := exec_frmBegin_of_room hf hr (n := n) (by unfold State.outFree; omega)
    rw [runCommands_cons_next opens]
    refine runCommands_ready_of_hasRoom hcmds hf ⟨whole.le, ?_⟩
    rw [whole, State.outFree, openFrame_eq]
    simp only [List.length_append, beginBytes_length]
    omega
  · have frame := frameSoFar_of_frmBegin hf hcmds e hft
    obtain ⟨gone, popped, out⟩ := frame.out
    have closed : t.rem.toNat = 0 := by have count := frame.rem; omega
    refine ⟨BitVec.eq_of_toNat_eq closed, gone.length, popped, ?_⟩
    rw [← frameBytes_complete whole, ← out, List.drop_left]

end Sys2Proof.Machine
end

section
/-!
The framer beside the other units (spec 42_stored_framer R125, 10_state R25).
-/

namespace Sys2Proof.Machine

/-! ### Commands of the other units -/

/-- Changing the framer's components and the queue and nothing else: the sums and the count are
replaced, and the queue changed by `g`. -/
def State.mapFramer (fa fb rem : Half) (g : List Byte → List Byte) (s : State) : State :=
  { s with fa := fa, fb := fb, rem := rem, out := g s.out }

section
variable (fa fb rem : Half) (g : List Byte → List Byte) (s : State)

theorem tblReady_mapFramer :
    (s.mapFramer fa fb rem g).tblReady = s.tblReady.mapFramer fa fb rem g := by
  rw [tblReady_eq, tblReady_eq]
  rfl

theorem tblRead_mapFramer (i : Byte) : (s.mapFramer fa fb rem g).tblRead i = s.tblRead i := by
  rw [State.tblRead, tblReady_mapFramer]
  rfl

/-- A CRC or Adler command neither reads nor writes the framer's components or the queue. -/
theorem exec_mapFramer {i : Instr} (hi : i.ofCrcUnit = true ∨ i.ofAdlerUnit = true) :
    exec i (s.mapFramer fa fb rem g) = mapNext (State.mapFramer fa fb rem g) (exec i s) := by
  cases i with
  | crcTinit | crcInit | crcFin | adlInit | adlUpd x | adlFin => exact unlessFaulted_mapNext rfl rfl
  | crcUpd b | crcRdt k =>
    apply unlessFaulted_mapNext rfl
    rw [tblReady_mapFramer, tblRead_mapFramer]
    rfl
  | _ => simp [Instr.ofCrcUnit, Instr.ofAdlerUnit] at hi

/-- A queue command neither reads nor writes the framer's components. -/
theorem exec_mapFramer_of_ofQueue {i : Instr} (hi : i.ofQueue = true) :
    exec i (s.mapFramer fa fb rem id) = mapNext (State.mapFramer fa fb rem id) (exec i s) := by
  cases i with
  | outPop | outCnt => exact unlessFaulted_mapNext rfl rfl
  | _ => exact Bool.noConfusion hi

end

/-! ### Commands of the framer -/

/-- No framer command is among the three that a faulted block executes (R178). -/
theorem runsFaulted_of_ofFramer {i : Instr} (hi : i.ofFramer = true) : i.runsFaulted = false := by
  cases i with
  | sysRst | sysStat | sysFinfo => exact Bool.noConfusion hi
  | _ => rfl

/-- A command that tests REM, then the free room, and then acts: whether it takes a fault, and
which one, is settled by REM and the free room before the state is given. -/
theorem settled_of_guarded {i : Instr} {wrong : Half → Prop} [DecidablePred wrong]
    {need : Half → Nat} {act : State → State} {c : Cause} {w : Word}
    (next : ∀ s : State, s.flt = false → exec i s =
      if wrong s.rem then .next (s.latch c w)
      else if s.outFree < need s.rem then .next (s.latch .outOvf w)
      else .next (act s))
    (rem : Half) (room : Nat) :
    (∃ c', ∀ s : State, s.flt = false → s.rem = rem → s.outFree = room →
      exec i s = .next (s.latch c' w)) ∨
    (∀ s : State, s.flt = false → s.rem = rem → s.outFree = room →
      exec i s = .next (act s)) := by
  by_cases bad : wrong rem
  · exact .inl ⟨c, fun s hf hr _ => by rw [next s hf, hr, if_pos bad]⟩
  · by_cases full : room < need rem
    · exact .inl ⟨.outOvf, fun s hf hr hroom => by
        rw [next s hf, hr, hroom, if_neg bad, if_pos full]⟩
    · exact .inr fun s hf hr hroom => by
        rw [next s hf, hr, hroom, if_neg bad, if_neg full]

/-- Settles O37: the other units' commands commute with every change of the framer. A framer command
is dropped while faulted; otherwise REM and the free room settle whether it faults, and if it does
not, `openFrame` and `acceptByte` say what it writes. -/
theorem framerStandsAlone : Obligations.FramerStandsAlone := by
  refine ⟨fun i s fa fb rem out hi => exec_mapFramer fa fb rem (fun _ => out) s hi,
    fun i s fa fb rem hi => exec_mapFramer_of_ofQueue fa fb rem s hi, ?_⟩
  intro i flt fa fb rem room hi
  cases flt with
  | true =>
    refine .inr ⟨fa, fb, rem, [], ?_⟩
    rintro s hf rfl rfl rfl -
    rw [exec_faulted hf (runsFaulted_of_ofFramer hi), List.append_nil]
  | false =>
    cases i with
    | frmBegin n =>
      rcases settled_of_guarded (wrong := (· ≠ 0)) (need := fun _ => beginNeed n)
        (fun _ hf => exec_frmBegin_ready hf n) rem room with ⟨c, faults⟩ | opens
      · exact .inl ⟨faultCode c, _, fun s hf _ _ => faults s hf⟩
      · exact .inr ⟨1, 0, n, beginBytes n, fun s hf _ _ => opens s hf⟩
    | frmData x =>
      rcases settled_of_guarded (wrong := (· = 0)) (need := dataNeed)
        (fun _ hf => exec_frmData_ready hf x) rem room with ⟨c, faults⟩ | accepts
      · exact .inl ⟨faultCode c, _, fun s hf _ _ => faults s hf⟩
      · refine .inr ⟨(adlerStep (fa, fb) x).1, (adlerStep (fa, fb) x).2, rem - 1,
          [x] ++ if rem = 1 then be32 (adlerWord (adlerStep (fa, fb) x)) else [], ?_⟩
        rintro s hf rfl rfl rfl hroom
        rw [accepts s hf rfl hroom, acceptByte_eq, List.append_assoc]
    | _ => exact Bool.noConfusion hi

end Sys2Proof.Machine
end

section
/-!
The fault record over a run (spec 60_exceptions R177 to R181, 43_system_and_output R138): a word
either raises no fault or latches exactly itself, and from then on, until a reset, every step keeps
the record.
-/

namespace Sys2Proof.Machine

/-! ### A fault is recorded with the word that raised it -/

/-- R177, R181: a command received while not faulted leaves no fault, or latches its own word and
does nothing else. -/
theorem latch_of_exec {i : Instr} {s t : State} (hf : s.flt = false) (e : exec i s = .next t) :
    t.flt = false ∨ ∃ c, t = s.latch c (encode i) := by
  have quiet {u : State} (e : unlessFaulted s (.next u) = .next t) (hu : u.flt = false) :
      t.flt = false ∨ ∃ c, t = s.latch c (encode i) :=
    .inl (of_unlessFaulted (P := (·.flt = false)) hf e hu)
  cases i with
  | sysRst => cases e; exact .inl rfl
  | sysStat | sysFinfo => cases e; exact .inl hf
  | crcUpd b | crcRdt k => exact quiet e ((sameFramer_tblReady s).flt.trans hf)
  | frmBegin n =>
    rcases execFrmBegin_next e with ⟨-, rfl⟩ | ⟨-, -, rfl⟩ | ⟨-, -, -, rfl⟩ | ⟨-, -, -, rfl⟩
    · exact .inl hf
    · exact .inr ⟨_, rfl⟩
    · exact .inr ⟨_, rfl⟩
    · exact .inl hf
  | frmData x =>
    rcases execFrmData_next e with ⟨-, rfl⟩ | ⟨-, -, rfl⟩ | ⟨-, -, -, rfl⟩ | ⟨-, -, -, rfl⟩
    · exact .inl hf
    · exact .inr ⟨_, rfl⟩
    · exact .inr ⟨_, rfl⟩
    · rw [acceptByte_eq]
      exact .inl hf
  | _ => exact quiet e hf

/-- The same for every word, legal or not. -/
theorem latch_of_execWord {w : Word} {s t : State} (hf : s.flt = false)
    (e : execWord w s = .next t) : t.flt = false ∨ ∃ c, t = s.latch c w := by
  rcases execWord_cases w s with ⟨i, hd, ex⟩ | ⟨r, -, ex⟩ <;> rw [ex] at e
  · rw [← decodeThenEncode w i hd]
    exact latch_of_exec hf e
  · rcases illegalCommand_next e with ⟨-, rfl⟩ | ⟨-, rfl⟩
    · exact .inl hf
    · exact .inr ⟨_, rfl⟩

/-- A step that raises a fault has latched the word it took, and done nothing else. -/
theorem latch_of_step {s t : State} {w : Word} {rest : List HostEvent}
    (hp : s.pending = .command w :: rest) (hf : s.flt = false) (e : step s = .next t)
    (fault : t.flt = true) : ∃ c, t = (s.setPending rest).latch c w := by
  rw [step_command hp] at e
  refine (latch_of_execWord (s := s.setPending rest) hf e).resolve_left fun ready => ?_
  exact Bool.noConfusion (fault.symm.trans ready)

/-! ### The record of a latched fault stands until a reset -/

/-- The fault record of `t` is that of `s`. -/
structure State.SameRecord (s t : State) : Prop where
  flt : t.flt = s.flt
  fcode : t.fcode = s.fcode
  finfo : t.finfo = s.finfo

theorem State.SameRecord.trans {s t u : State} (h : s.SameRecord t) (h' : t.SameRecord u) :
    s.SameRecord u :=
  ⟨h'.flt.trans h.flt, h'.fcode.trans h.fcode, h'.finfo.trans h.finfo⟩

/-- R178: while faulted, every command but SYS.RST keeps the record. -/
theorem sameRecord_of_exec {i : Instr} {s t : State} (hf : s.flt = true) (hi : i ≠ .sysRst)
    (e : exec i s = .next t) : s.SameRecord t := by
  cases i with
  | sysRst => exact absurd rfl hi
  | sysStat | sysFinfo => cases e; exact ⟨rfl, rfl, rfl⟩
  | _ => rw [exec_faulted hf rfl] at e; cases e; exact ⟨rfl, rfl, rfl⟩

/-- R178, R180: while faulted, every word but that of SYS.RST keeps the record. -/
theorem sameRecord_of_execWord {w : Word} {s t : State} (hf : s.flt = true) (hw : w ≠ 0x02000000)
    (e : execWord w s = .next t) : s.SameRecord t := by
  rcases execWord_cases w s with ⟨i, hd, ex⟩ | ⟨r, -, ex⟩ <;> rw [ex] at e
  · refine sameRecord_of_exec hf ?_ e
    rintro rfl
    exact hw (decode_injective hd rfl)
  · rw [illegalCommand_faulted hf] at e
    cases e
    exact ⟨rfl, rfl, rfl⟩

/-- Among the events there is no reset of either kind. -/
def NoReset (events : List HostEvent) : Prop :=
  .reset ∉ events ∧ .command 0x02000000 ∉ events

theorem noReset_append {es es' : List HostEvent} :
    NoReset (es ++ es') ↔ NoReset es ∧ NoReset es' := by
  simp only [NoReset, List.mem_append, not_or]
  exact and_and_and_comm

/-- R179, R180: while faulted, a step that takes no reset keeps the record. -/
theorem sameRecord_of_step {s t : State} (hf : s.flt = true) (quiet : NoReset (s.pending.take 1))
    (e : step s = .next t) : s.SameRecord t := by
  obtain ⟨noEvent, noWord⟩ := quiet
  rcases step_cases s with ⟨-, es⟩ | ⟨w, rest, hp, es⟩ | ⟨rest, hp, -⟩
  · cases es.symm.trans e
    exact ⟨rfl, rfl, rfl⟩
  · have hw : w ≠ 0x02000000 := by
      rintro rfl
      exact noWord (hp ▸ List.mem_singleton_self _)
    have record := sameRecord_of_execWord (s := s.setPending rest) hf hw (es.symm.trans e)
    exact { record with }
  · exact absurd (hp ▸ List.mem_singleton_self _) noEvent

/-- R179, R180 over a run: while faulted, steps that take no reset keep the record. -/
theorem sameRecord_of_run {n : Nat} {s u : State} (hf : s.flt = true)
    (quiet : NoReset (s.pending.take n)) (e : core.run n s = .next u) : s.SameRecord u := by
  induction n generalizing s with
  | zero => cases e; exact ⟨rfl, rfl, rfl⟩
  | succ n ih =>
    obtain ⟨t, es, pending, -⟩ := stepTakesEventsInOrder s
    rw [Nat.add_comm, List.take_add, ← pending, noReset_append] at quiet
    obtain ⟨first, later⟩ := quiet
    have record := sameRecord_of_step hf first es
    rw [run_succ es] at e
    exact record.trans (ih (record.flt.trans hf) later e)

/-! ### SYS.FINFO -/

/-- R138: the response is FINFO, faulted or not. -/
theorem exec_sysFinfo (s : State) : exec .sysFinfo s = .next (s.respond s.finfo) := rfl

/-- R30 (c), R138: over a legal record without a fault the response is 0. -/
theorem exec_sysFinfo_ready {s : State} (legal : s.RecordLegal) (hf : s.flt = false) :
    exec .sysFinfo s = .next (s.respond 0) := by
  obtain ⟨-, finfo⟩ := legal.1 hf
  rw [exec_sysFinfo, finfo]

/-- R65, R172: the all-zero word is illegal, so it faults, and 0 is what is recorded. -/
theorem step_zeroWord {s : State} {rest : List HostEvent}
    (hp : s.pending = .command 0x00000000 :: rest) (hf : s.flt = false) :
    step s = .next { s with pending := rest, flt := true, fcode := 1, finfo := 0 } :=
  (step_illegal hp (r := .unassignedOpcode) rfl).trans
    (illegalCommand_ready (s := s.setPending rest) hf _)

/-- Settles O56: the step that raises the fault latches the word, and the run after it keeps the
record. -/
theorem finfoNamesTheWordThatFaulted : Obligations.FinfoNamesTheWordThatFaulted := by
  refine ⟨rfl, exec_sysFinfo, fun _ => exec_sysFinfo_ready, fun _ _ => step_zeroWord, ?_⟩
  intro s t u w rest n hp hf es fault noEvent noWord eu
  obtain ⟨c, rfl⟩ := latch_of_step hp hf es fault
  have record := sameRecord_of_run fault ⟨noEvent, noWord⟩ eu
  obtain rfl : u.finfo = w := record.finfo
  exact ⟨record.flt, exec_sysFinfo u⟩

/-- Settles O17: by the rule of the command, and by the fault that the all-zero word raises. -/
theorem sysFinfoReadsTheFaultingWord : Obligations.SysFinfoReadsTheFaultingWord :=
  ⟨rfl, exec_sysFinfo, fun _ => exec_sysFinfo_ready, fun _ _ => step_zeroWord⟩

end Sys2Proof.Machine
end

section
/-!
The system commands `SYS.NOP`, `SYS.RST` and `SYS.STAT` (spec 43_system_and_output R135 to R137),
with STATUS field by field (10_state R29).
-/

namespace Sys2Proof.Machine

/-! ### The fields of STATUS -/

/-- Bits 31:16 of STATUS are REM (R29). -/
theorem status_rem (s : State) : s.status.extractLsb' 16 16 = s.rem := by
  ext i hi
  have aboveFcode : ¬ 16 + i < 4 := by omega
  simp (disch := omega) [State.status, zextHalf, bitWord, aboveFcode, BitVec.getLsbD_of_ge]

/-- Bits 15:8 of STATUS are 0 (R29). -/
theorem status_gap (s : State) : s.status.extractLsb' 8 8 = 0 := by
  ext i hi
  have belowRem : 8 + i < 16 := by omega
  simp (disch := omega) [State.status, zextHalf, bitWord, belowRem, BitVec.getLsbD_of_ge]

/-- Bits 7:4 of STATUS are FCODE (R29). -/
theorem status_fcode (s : State) : s.status.extractLsb' 4 4 = s.fcode := by
  ext i hi
  have belowRem : 4 + i < 16 := by omega
  simp (disch := omega) [State.status, zextHalf, bitWord, belowRem]

/-- Bits 3, 2 and 1 of STATUS are ONE, FLT and FBSY (R29). -/
theorem status_flags (s : State) :
    s.status.getLsbD 3 = s.one ∧ s.status.getLsbD 2 = s.flt ∧ s.status.getLsbD 1 = s.fbsy := by
  simp [State.status, zextHalf, bitWord]

/-- ONE says that the queue is not empty (R29). -/
theorem one_eq (s : State) : s.one = decide (s.out ≠ []) :=
  decide_eq_decide.mpr List.length_pos_iff

/-- FBSY says that payload bytes are expected (R29). -/
theorem fbsy_eq (s : State) : s.fbsy = decide (s.rem ≠ 0) := by
  rw [State.fbsy, bne, beq_eq_decide, decide_not]

/-! ### The settled statements -/

/-- Settles O14: dropped or executed, the command leaves the state as it is. -/
theorem sysNopDoesNothing : Obligations.SysNopDoesNothing := by
  refine ⟨rfl, fun s => ?_, rfl⟩
  change unlessFaulted s (.next s) = _
  rw [unlessFaulted, ite_self]

/-- Settles O15: the command and the hardware event are both `State.resetBlock`; the word next to
its own is illegal; no other command ends a fault. -/
theorem sysRstResetsEverything : Obligations.SysRstResetsEverything := by
  obtain ⟨-, -, -, status_of_atReset⟩ := resetValuesAndStatus
  refine ⟨rfl, fun s => ?_, rfl, fun s rest hp hf => ?_, fun s rest hp => step_reset hp, ?_⟩
  · have atReset := resetBlock_atReset s
    exact ⟨_, rfl, atReset, resetBlock_samePort s, status_of_atReset _ atReset⟩
  · rw [step_illegal hp (r := .reservedBits) rfl]
    exact illegalCommand_faulted (s := s.setPending rest) hf _
  · intro i s t hf e ready
    by_contra other
    exact Bool.noConfusion (ready.symm.trans (exec_stays_faulted_of_ne hf other e))

/-- Settles O16: the response is STATUS, whose fields are those of R29. -/
theorem sysStatReadsTheStatus : Obligations.SysStatReadsTheStatus := by
  refine ⟨rfl, fun s => ⟨s.status, rfl, status_rem s, status_gap s, status_fcode s, ?_⟩⟩
  obtain ⟨one, flt, fbsy⟩ := status_flags s
  exact ⟨one.trans (one_eq s), flt, fbsy.trans (fbsy_eq s), status_getLsbD_zero s⟩

end Sys2Proof.Machine
end

section
/-!
The output-queue commands `OUT.POP` and `OUT.CNT` (spec 43_system_and_output R139, R140): the whole
next state of each, and the responses as numbers.
-/

namespace Sys2Proof.Machine

/-- R139: the queue loses its head, if it has one, and the response tells which byte that was. -/
theorem exec_outPop_ready {s : State} (hf : s.flt = false) :
    exec .outPop s = .next (s.outDrop.respond (popAnswer s.out)) := unlessFaulted_ready hf _

/-- R140: the response is the length of the queue. -/
theorem exec_outCnt_ready {s : State} (hf : s.flt = false) :
    exec .outCnt s = .next (s.respond (BitVec.ofNat 32 s.out.length)) := unlessFaulted_ready hf _

/-- R139: bit 8 set above the byte. -/
theorem popAnswer_cons_toNat (x : Byte) (rest : List Byte) :
    (popAnswer (x :: rest)).toNat = 256 + x.toNat := by
  have sum : 2 ^ 8 * 1 + x.toNat = 2 ^ 8 * 1 ||| x.toNat :=
    Nat.two_pow_add_eq_or_of_lt x.isLt 1
  rw [popAnswer, zextByte, BitVec.toNat_or, BitVec.toNat_setWidth_of_le (by decide)]
  exact sum.symm

/-- A queue within an admissible depth has a length that fits a response (R4, R30 (b)). -/
theorem out_length_toNat {s : State} (bounded : s.QueueBounded) (depth : s.DepthLegal) :
    (BitVec.ofNat 32 s.out.length).toNat = s.out.length := by
  obtain ⟨-, most⟩ := depth
  exact Nat.mod_eq_of_lt ((bounded.trans most).trans_lt (by decide))

/-- Settles O28: the pop of a queue with a head, and of an empty one, gated by FLT. -/
theorem outPopTakesTheHead : Obligations.OutPopTakesTheHead := by
  refine ⟨rfl, fun s x rest hf hout => ?_, fun s hf hout => ?_, fun _ hf => exec_faulted hf rfl⟩
  · refine ⟨popAnswer s.out, ?_, by rw [hout, popAnswer_cons_toNat]⟩
    rw [exec_outPop_ready hf, outDrop_of_cons hout]
    rfl
  · have unchanged : s.outDrop = s := by rw [State.outDrop, hout, List.drop_nil, ← hout]
    have answer : popAnswer s.out = 0x00000000 := by rw [hout]; rfl
    rw [exec_outPop_ready hf, unchanged, answer]
    rfl

/-- Settles O29: the command answers the length of the queue, gated by FLT. -/
theorem outCntCountsTheQueue : Obligations.OutCntCountsTheQueue :=
  ⟨rfl, fun _ bounded depth hf => ⟨_, exec_outCnt_ready hf, out_length_toNat bounded depth⟩,
    fun _ hf => exec_faulted hf rfl⟩

end Sys2Proof.Machine
end

section
/-!
A list of commands sent through the port (spec 00_scope R9, 20_memory R50): no command reads the
events to come, so the words of the list take one step each and do what the commands do.
-/

namespace Sys2Proof.Machine

theorem tblReady_setPending (s : State) (p : List HostEvent) :
    (s.setPending p).tblReady = s.tblReady.setPending p := by
  rw [tblReady_eq, tblReady_eq]
  rfl

theorem tblRead_setPending (s : State) (p : List HostEvent) (i : Byte) :
    (s.setPending p).tblRead i = s.tblRead i := by
  rw [State.tblRead, tblReady_setPending]
  rfl

theorem acceptByte_setPending (x : Byte) (s : State) (p : List HostEvent) :
    acceptByte x (s.setPending p) = (acceptByte x s).setPending p := by
  rw [acceptByte_eq, acceptByte_eq]
  rfl

/-- No command reads or writes the events to come. -/
theorem exec_setPending (i : Instr) (s : State) (p : List HostEvent) :
    exec i (s.setPending p) = mapNext (·.setPending p) (exec i s) := by
  have gated {act act' : Result} (h : act' = mapNext (·.setPending p) act) :
      unlessFaulted (s.setPending p) act' = mapNext (·.setPending p) (unlessFaulted s act) :=
    unlessFaulted_mapNext (f := (·.setPending p)) rfl h
  cases i with
  | sysRst | sysStat | sysFinfo => rfl
  | crcUpd b | crcRdt k =>
    apply gated
    rw [tblReady_setPending, tblRead_setPending]
    rfl
  | frmBegin n =>
    apply gated
    rw [mapNext_ite, mapNext_ite]
    rfl
  | frmData x =>
    apply gated
    rw [mapNext_ite, mapNext_ite, acceptByte_setPending]
    rfl
  | _ => exact gated rfl

/-- The word of a command is taken and the command executed on the state without it. -/
theorem step_encode {s : State} {i : Instr} {rest : List HostEvent}
    (hp : s.pending = .command (encode i) :: rest) : step s = exec i (s.setPending rest) :=
  (step_command hp).trans (execWord_command (decode_encode i) _)

/-- After one list of commands, the next list runs from the state that it left. -/
theorem runCommands_append_next {is js : List Instr} {s t : State}
    (e : runCommands is s = .next t) : runCommands (is ++ js) s = runCommands js t := by
  rw [runCommands_append, e, andThen_next]

/-- Steps over the words of a list of commands do what the commands do in order. -/
theorem run_asEvents {is : List Instr} {s : State} {rest : List HostEvent}
    (hp : s.pending = asEvents is ++ rest) :
    core.run is.length s = runCommands is (s.setPending rest) := by
  induction is generalizing s with
  | nil => exact congrArg (fun p => Host.Outcome.next (s.setPending p)) hp
  | cons i is ih =>
    obtain ⟨t, e⟩ := exec_completes i (s.setPending (asEvents is ++ rest))
    have first : step s = .next t := (step_encode hp).trans e
    obtain ⟨u, es, left, -⟩ := stepTakesEventsInOrder s
    have pending : t.pending = asEvents is ++ rest := by
      cases first.symm.trans es
      rw [left, hp]
      rfl
    have alone : exec i (s.setPending rest) = .next (t.setPending rest) := by
      have moved := exec_setPending i (s.setPending (asEvents is ++ rest)) rest
      rw [e] at moved
      exact moved
    rw [List.length_cons, run_succ first, ih pending, runCommands_cons_next alone]

end Sys2Proof.Machine
end

section
/-!
The host's checksum procedures (spec 44_container_host_procedure R151, R152): the commands of
HP.CRC32 and HP.ADLER32, and their words sent through the port.
-/

namespace Sys2Proof.Machine

/-! ### HP.CRC32 -/

/-- `CRC.BYTES` feeds its bytes to the register and touches the CRC unit alone. -/
theorem runCommands_macroCrcBytes (bytes : List Byte) {s : State} (hf : s.flt = false)
    (valid : s.TableValid) : ∃ (tab : Table) (tv : Bool),
    runCommands (macroCrcBytes bytes) s =
      .next { s with t := tab, tv := tv, crc := crcFeed s.crc bytes } := by
  induction bytes generalizing s with
  | nil => exact ⟨s.t, s.tv, rfl⟩
  | cons b bytes ih =>
    have first := (exec_crcUpd valid b).trans (unlessFaulted_ready hf _)
    obtain ⟨tab, tv, e⟩ := ih (s := s.tblInit.setCrc (crcStep s.crc b)) hf fun _ => rfl
    exact ⟨tab, tv, (runCommands_cons_next first).trans e⟩

/-- R151: HP.CRC32 answers `crc32` of the bytes and touches the CRC unit alone. -/
theorem runCommands_hpCrc32 (bytes : List Byte) {s : State} (hf : s.flt = false)
    (valid : s.TableValid) : ∃ (tab : Table) (tv : Bool),
    runCommands (hpCrc32 bytes) s = .next { s with
      t := tab
      tv := tv
      crc := crc32 bytes ^^^ crcXorOut
      responses := s.responses ++ [crc32 bytes] } := by
  have init : exec .crcInit s = .next (s.setCrc crcInitial) := unlessFaulted_ready hf _
  obtain ⟨tab, tv, fed⟩ := runCommands_macroCrcBytes bytes (s := s.setCrc crcInitial) hf valid
  have register : crc32 bytes ^^^ crcXorOut = crcFeed crcInitial bytes := by
    rw [crc32, BitVec.xor_assoc, BitVec.xor_self, BitVec.xor_zero]
  refine ⟨tab, tv, ?_⟩
  rw [register]
  calc runCommands (hpCrc32 bytes) s
    _ = runCommands (macroCrcBytes bytes ++ [Instr.crcFin]) (s.setCrc crcInitial) :=
      runCommands_cons_next init
    _ = runCommands [.crcFin] _ := runCommands_append_next fed
    _ = .next _ := runCommands_cons_next (exec_crcFin_ready hf)

/-- Settles O42: the words do what the commands of HP.CRC32 do. -/
theorem crcStreamReturnsTheChecksum : Obligations.CrcStreamReturnsTheChecksum := by
  intro s bytes rest hf valid hp
  have count : (hpCrc32 bytes).length = bytes.length + 2 := by
    simp [hpCrc32, macroCrc32, macroCrcBytes]
  rw [← count, run_asEvents hp]
  exact runCommands_hpCrc32 bytes (s := s.setPending rest) hf valid

/-! ### HP.ADLER32 -/

/-- `ADL.BYTES` feeds its bytes to the sums. -/
theorem runCommands_macroAdlBytes (bytes : List Byte) {s : State} (hf : s.flt = false) :
    runCommands (macroAdlBytes bytes) s = .next (s.setSums (adlerFeed (s.a, s.b) bytes)) := by
  induction bytes generalizing s with
  | nil => rfl
  | cons x bytes ih =>
    exact (runCommands_cons_next (exec_adlUpd_ready hf x)).trans
      (ih (s := s.setSums (adlerStep (s.a, s.b) x)) hf)

/-- R152: HP.ADLER32 answers `adler32` of the bytes and touches the sums alone. -/
theorem runCommands_hpAdler32 (bytes : List Byte) {s : State} (hf : s.flt = false) :
    runCommands (hpAdler32 bytes) s =
      .next ((s.setSums (adlerFeed adlerInitial bytes)).respond (adler32 bytes)) := by
  have init : exec .adlInit s = .next (s.setSums adlerInitial) := unlessFaulted_ready hf _
  have fed := runCommands_macroAdlBytes bytes (s := s.setSums adlerInitial) hf
  calc runCommands (hpAdler32 bytes) s
    _ = runCommands (macroAdlBytes bytes ++ [Instr.adlFin]) (s.setSums adlerInitial) :=
      runCommands_cons_next init
    _ = runCommands [.adlFin] _ := runCommands_append_next fed
    _ = .next _ := runCommands_cons_next (exec_adlFin_ready hf)

/-- Settles O43: the words do what the commands of HP.ADLER32 do. -/
theorem adlerStreamReturnsTheChecksum : Obligations.AdlerStreamReturnsTheChecksum := by
  intro s bytes rest hf hp
  have count : (hpAdler32 bytes).length = bytes.length + 2 := by
    simp [hpAdler32, macroAdler32, macroAdlBytes]
  rw [← count, run_asEvents hp]
  exact ⟨_, _, runCommands_hpAdler32 bytes (s := s.setPending rest) hf⟩

end Sys2Proof.Machine
end

section
/-!
HP.ZSTORE (spec 44_container_host_procedure R153): the frame leaves `zstore` in the queue and
returns nothing, and the pops then empty the queue into the responses.
-/

namespace Sys2Proof.Machine

/-! ### The frame -/

/-- Commands that return no response return none in a row. -/
theorem responses_of_runCommands_silent {is : List Instr} {s t : State}
    (silent : ∀ i ∈ is, ¬ i.responds = true) (e : runCommands is s = .next t) :
    t.responses = s.responses := by
  induction is generalizing s with
  | nil => cases e; rfl
  | cons i is ih =>
    obtain ⟨hi, tail⟩ := List.forall_mem_cons.mp silent
    obtain ⟨u, eu⟩ := exec_completes i s
    rw [runCommands_cons_next eu] at e
    exact (ih tail e).trans (responses_of_silent hi eu)

/-- The payload that `FRM.BYTES` supplies is its bytes. -/
theorem payloadOf_macroFrmBytes (bytes : List Byte) : payloadOf (macroFrmBytes bytes) = bytes := by
  induction bytes with
  | nil => rfl
  | cons x bytes ih => exact congrArg (x :: ·) ih

/-- `ZSTORE` over an empty queue with room for the frame leaves `zstore` in the queue, no frame
open, no fault, and no response. -/
theorem runCommands_frame {bytes : List Byte} {s : State} (start : s.Delivered)
    (short : bytes.length ≤ 65535) (room : bytes.length + 11 ≤ s.outDepth) :
    ∃ t, runCommands (.frmBegin (BitVec.ofNat 16 bytes.length) :: macroFrmBytes bytes) s = .next t ∧
      t.Clean ∧ t.out = zstore bytes ∧ t.responses = s.responses := by
  obtain ⟨⟨ready, closed⟩, empty⟩ := start
  have stated : (BitVec.ofNat 16 bytes.length).toNat = bytes.length :=
    Nat.mod_eq_of_lt (Nat.lt_succ_of_le short)
  have keeps : ∀ i ∈ macroFrmBytes bytes, i.keepsFrame = true :=
    List.forall_mem_map.mpr fun _ _ => rfl
  have silent : ∀ i ∈ macroFrmBytes bytes, ¬ i.responds = true :=
    List.forall_mem_map.mpr fun _ _ => Bool.false_ne_true
  have noPop : .outPop ∉ macroFrmBytes bytes := fun h => silent _ h rfl
  have whole : (payloadOf (macroFrmBytes bytes)).length =
      (BitVec.ofNat 16 bytes.length).toNat := by
    rw [payloadOf_macroFrmBytes, stated]
  obtain ⟨completes, holds⟩ :=
    frameIsZstoreOfItsPayload s _ (macroFrmBytes bytes) ready closed keeps whole
  obtain ⟨t, e, hft⟩ := completes (by rw [stated, empty]; exact room)
  obtain ⟨rem, k, popped, out⟩ := holds t e hft
  have none : k = 0 := by
    rw [List.count_eq_zero.mpr noPop] at popped
    exact Nat.le_zero.mp popped
  refine ⟨t, e, ⟨hft, rem⟩, ?_, responses_of_runCommands_silent ?_ e⟩
  · rw [out, none, empty, payloadOf_macroFrmBytes, List.drop_zero, List.nil_append]
  · exact List.forall_mem_cons.mpr ⟨Bool.false_ne_true, silent⟩

/-! ### The pops -/

/-- One pop for each byte of the queue empties it into the responses, head first (R139). -/
theorem runCommands_replicate_outPop (q : List Byte) {s : State} (hf : s.flt = false) :
    runCommands (List.replicate q.length .outPop) { s with out := q } =
      .next { s with
        out := []
        responses := s.responses ++ q.map fun b => 0x00000100 ||| b.setWidth 32 } := by
  induction q generalizing s with
  | nil => rw [List.map_nil, List.append_nil]; rfl
  | cons x q ih =>
    have pop : exec .outPop { s with out := x :: q } =
        .next { s.respond (0x00000100 ||| x.setWidth 32) with out := q } := exec_outPop_ready hf
    have rest := ih (s := s.respond (0x00000100 ||| x.setWidth 32)) hf
    rw [List.map_cons, List.append_cons]
    exact (runCommands_cons_next pop).trans rest

/-- Settles O48: the frame leaves `zstore` in the queue and the pops return it. -/
theorem zstoreIsReadBackByPops : Obligations.ZstoreIsReadBackByPops := by
  intro s bytes start short room
  obtain ⟨t, framed, ⟨ready, closed⟩, out, responses⟩ := runCommands_frame start short room
  have count : t.out.length = bytes.length + wrapOverhead := by
    rw [out, zstore_length, wrapOverhead]
  have popped := runCommands_replicate_outPop t.out ready
  rw [count] at popped
  refine ⟨_, (runCommands_append_next framed).trans popped, ⟨⟨ready, closed⟩, rfl⟩, ?_⟩
  rw [responses, out]

end Sys2Proof.Machine
end

section
/-!
The image of HP.IMAGE (spec 44_container_host_procedure R159, R161): what its pixel can change.
-/

namespace Sys2Proof.Machine

theorem hpChunk_length (tag payload : List Byte) :
    (hpChunk tag payload).length = tag.length + payload.length + 8 := by
  simp only [hpChunk, List.length_append, be32_length]
  omega

/-- The bytes of an image before its pixel, offsets 0 to 48: the signature, the header chunk, and of
the data chunk the length, the tag, the seven leading bytes of the frame and the filter byte. -/
def imageHead : List Byte :=
  hpSignature ++ hpChunk tagHeader hpHeaderPayload ++
    (be32 16 ++ tagData ++ frameHead 5 ++ [0x00])

/-- The bytes of an image that its pixel can change, offsets 49 to 60: the channels, the trailer of
the frame, and the CRC of the data chunk (R161). -/
def imagePixel (r g b a : Byte) : List Byte :=
  [r, g, b, a] ++ be32 (adler32 [0x00, r, g, b, a]) ++
    be32 (crc32 (tagData ++ hpDataPayload r g b a))

theorem imageHead_length : imageHead.length = 49 := by
  simp only [imageHead, List.length_append, hpChunk_length, be32_length, frameHead_length]
  rfl

theorem imagePixel_length (r g b a : Byte) : (imagePixel r g b a).length = 12 := by
  simp only [imagePixel, List.length_append, be32_length]
  rfl

/-- An image is the fixed head, the twelve bytes of its pixel, and the terminator chunk. -/
theorem hpImage_eq (r g b a : Byte) :
    hpImage r g b a = imageHead ++ imagePixel r g b a ++ hpChunk tagEnd [] := by
  have length : (hpDataPayload r g b a).length = 16 := zstore_length _
  have data : hpChunk tagData (hpDataPayload r g b a) =
      be32 16 ++ tagData ++ frameHead 5 ++ [0x00] ++ imagePixel r g b a := by
    rw [hpChunk, length]
    rfl
  rw [hpImage, data, imageHead]
  simp only [List.append_assoc]

/-- Settles O55: two images have the same bytes before and after the twelve that their pixels can
change. -/
theorem imagesDifferInTwelveBytes : Obligations.ImagesDifferInTwelveBytes := by
  intro r g b a r' g' b' a'
  have front (r g b a : Byte) : (imageHead ++ imagePixel r g b a).length = 61 := by
    rw [List.length_append, imageHead_length, imagePixel_length]
  refine ⟨?_, fun k hk => ?_⟩
  · rw [hpImage_eq, List.length_append, front, hpChunk_length]
    rfl
  · rw [hpImage_eq, hpImage_eq]
    rcases hk with before | after
    · have head : k < imageHead.length := by rw [imageHead_length]; exact before
      rw [List.append_assoc, List.append_assoc, List.getElem?_append_left head,
        List.getElem?_append_left head]
    · rw [List.getElem?_append_right ((front r g b a).trans_le after),
        List.getElem?_append_right ((front r' g' b' a').trans_le after), front, front]

end Sys2Proof.Machine
end

section
/-!
Faults and exceptions (spec 60_exceptions): which word raises which fault (R171, R176), that a fault
is precise (R181), what a faulted block still executes (R178) and how it leaves the faulted state
(R179, R180); and that every step completes (R189, R191).
-/

namespace Sys2Proof.Machine

/-! ### Every step completes -/

/-- Settles O3: the step's own case for no pending event. -/
theorem idleBlockHoldsItsState : Obligations.IdleBlockHoldsItsState := fun _ => step_idle

/-- Settles O4: each command completes, so each word and each event does. -/
theorem everyStepCompletes : Obligations.EveryStepCompletes := by
  refine ⟨fun s => ?_, exec_completes⟩
  obtain ⟨t, e, -⟩ := step_portAfter s
  exact ⟨t, e⟩

/-! ### A fault is precise -/

/-- Settles O31: a step that faults only latches the word it took. -/
theorem faultsArePrecise : Obligations.FaultsArePrecise := by
  intro s w rest t hp hf e fault
  obtain ⟨c, latched⟩ := latch_of_step hp hf e fault
  exact ⟨faultCode c, latched⟩

/-! ### While a fault is latched -/

theorem runsFaulted_iff (i : Instr) :
    i.runsFaulted = true ↔ i = .sysRst ∨ i = .sysStat ∨ i = .sysFinfo := by
  cases i <;> simp [Instr.runsFaulted]

/-- R178, R180: while faulted, a word that is none of the three is dropped, legal or not. -/
theorem execWord_dropped {w : Word} {s : State} (hf : s.flt = true) (rst : w ≠ 0x02000000)
    (stat : w ≠ 0x03000000) (finfo : w ≠ 0x04000000) : execWord w s = .next s := by
  rcases execWord_cases w s with ⟨i, hd, ex⟩ | ⟨r, -, ex⟩ <;> rw [ex]
  · refine exec_faulted hf (Bool.eq_false_of_not_eq_true fun runs => ?_)
    rcases (runsFaulted_iff i).mp runs with rfl | rfl | rfl
    · exact rst (decode_injective hd rfl)
    · exact stat (decode_injective hd rfl)
    · exact finfo (decode_injective hd rfl)
  · exact illegalCommand_faulted hf w

/-- Settles O32: the three words decode to the three commands, and the rest is dropped. -/
theorem faultedBlockDropsAllButThree : Obligations.FaultedBlockDropsAllButThree := by
  intro s w rest hp hf
  rw [step_command hp]
  refine ⟨?_, ?_, ?_, execWord_dropped (s := s.setPending rest) hf⟩
  · rintro rfl
    exact ⟨_, execWord_command (i := .sysRst) rfl _, resetBlock_atReset _⟩
  · rintro rfl
    exact execWord_command (i := .sysStat) rfl _
  · rintro rfl
    exact execWord_command (i := .sysFinfo) rfl _

/-- Settles O33: idling and every word but that of SYS.RST keep the record; the other two events
reset the block. -/
theorem onlyResetEndsAFault : Obligations.OnlyResetEndsAFault := by
  intro s t hf e
  rcases step_cases s with ⟨-, es⟩ | ⟨w, rest, hp, es⟩ | ⟨rest, hp, es⟩ <;> rw [es] at e
  · cases e
    exact .inl ⟨hf, rfl, rfl⟩
  · by_cases hw : w = 0x02000000
    · subst hw
      cases (execWord_command (i := .sysRst) rfl _).symm.trans e
      exact .inr ⟨resetBlock_atReset _, rest, .inr hp⟩
    · obtain ⟨flt, fcode, finfo⟩ := sameRecord_of_execWord (s := s.setPending rest) hf hw e
      exact .inl ⟨flt.trans hf, fcode, finfo⟩
  · cases e
    exact .inr ⟨resetBlock_atReset _, rest, .inl hp⟩

/-! ### The cause of a fault -/

/-- The fault that a received word raises in a state without a fault, by what it decodes to: the
sequence is tested before the room (R171, R176). -/
def State.causeOf (s : State) : Decoded → Option Cause
  | .illegal _ => some .illegalCmd
  | .command (.frmBegin n) =>
    if s.rem ≠ 0 then some .frmOpen else if s.outFree < beginNeed n then some .outOvf else none
  | .command (.frmData _) =>
    if s.rem = 0 then some .frmClosed
    else if s.outFree < dataNeed s.rem then some .outOvf else none
  | .command _ => none

section
variable (s : State) (d : Decoded)

theorem causeOf_eq_illegalCmd_iff :
    s.causeOf d = some .illegalCmd ↔ ∃ r, d = .illegal r := by
  unfold State.causeOf
  split <;> simp [ite_eq_iff]

theorem causeOf_eq_frmOpen_iff :
    s.causeOf d = some .frmOpen ↔ ∃ n, d = .command (.frmBegin n) ∧ s.rem ≠ 0 := by
  unfold State.causeOf
  split <;> simp_all [ite_eq_iff]

theorem causeOf_eq_frmClosed_iff :
    s.causeOf d = some .frmClosed ↔ ∃ x, d = .command (.frmData x) ∧ s.rem = 0 := by
  unfold State.causeOf
  split <;> simp_all [ite_eq_iff]

theorem causeOf_eq_outOvf_iff :
    s.causeOf d = some .outOvf ↔
      (∃ n, d = .command (.frmBegin n) ∧ s.rem = 0 ∧ s.outFree < beginNeed n) ∨
      (∃ x, d = .command (.frmData x) ∧ s.rem ≠ 0 ∧ s.outFree < dataNeed s.rem) := by
  unfold State.causeOf
  split <;> simp_all [ite_eq_iff]

end

theorem faultCode_injective : Function.Injective faultCode := by
  intro c c'
  cases c <;> cases c' <;> decide

/-! ### What a word does to the fault record of an unfaulted block -/

/-- No fault is latched in `t`, and its fault record is legal if that of `s` is. -/
structure State.NoFaultAfter (s t : State) : Prop where
  ready : t.flt = false
  legal : s.RecordLegal → t.RecordLegal

/-- What the word `w`, decoding to `d`, has done when it ends in `t` and was received in `s` without
a fault: latched the fault that it raises (R177), or, if it raises none, left no fault. -/
inductive State.RecordAfter (s : State) (w : Word) (d : Decoded) (t : State) : Prop
  | raised (c : Cause) (cause : s.causeOf d = some c) (latched : t = s.latch c w)
  | quiet (noCause : s.causeOf d = none) (noFault : s.NoFaultAfter t)

section
variable {s t : State} (hf : s.flt = false)
include hf

theorem noFaultAfter_tblReady : s.NoFaultAfter s.tblReady := by
  obtain ⟨t, tv, e⟩ := tblReady_frame s
  rw [e]
  exact ⟨hf, id⟩

theorem noFaultAfter_acceptByte (x : Byte) : s.NoFaultAfter (acceptByte x s) := by
  rw [acceptByte_eq]
  exact ⟨hf, id⟩

theorem recordAfter_frmBegin {n : Half} (e : execFrmBegin n s = .next t) :
    s.RecordAfter (encode (.frmBegin n)) (.command (.frmBegin n)) t := by
  rcases execFrmBegin_next e with ⟨faulted, -⟩ | ⟨-, busy, rfl⟩ | ⟨-, closed, full, rfl⟩ |
    ⟨-, closed, room, rfl⟩
  · exact Bool.noConfusion (faulted.symm.trans hf)
  · exact .raised .frmOpen (if_pos busy) rfl
  · exact .raised .outOvf ((if_neg (not_not.mpr closed)).trans (if_pos full)) rfl
  · exact .quiet ((if_neg (not_not.mpr closed)).trans (if_neg (not_lt.mpr room))) ⟨hf, id⟩

theorem recordAfter_frmData {x : Byte} (e : execFrmData x s = .next t) :
    s.RecordAfter (encode (.frmData x)) (.command (.frmData x)) t := by
  rcases execFrmData_next e with ⟨faulted, -⟩ | ⟨-, closed, rfl⟩ | ⟨-, busy, full, rfl⟩ |
    ⟨-, busy, room, rfl⟩
  · exact Bool.noConfusion (faulted.symm.trans hf)
  · exact .raised .frmClosed (if_pos closed) rfl
  · exact .raised .outOvf ((if_neg busy).trans (if_pos full)) rfl
  · exact .quiet ((if_neg busy).trans (if_neg (not_lt.mpr room))) (noFaultAfter_acceptByte hf x)

/-- Only the framer's two commands raise a fault. -/
theorem recordAfter_of_exec {i : Instr} (e : exec i s = .next t) :
    s.RecordAfter (encode i) (.command i) t := by
  have gated {u : State} : unlessFaulted s (.next u) = .next t → s.NoFaultAfter u →
      s.NoFaultAfter t := of_unlessFaulted ⟨hf, id⟩
  cases i with
  | sysRst => cases e; exact .quiet rfl ⟨rfl, fun _ => by simp [State.RecordLegal]⟩
  | sysStat | sysFinfo => cases e; exact .quiet rfl ⟨hf, id⟩
  | crcUpd b | crcRdt k =>
    have built := noFaultAfter_tblReady hf
    exact .quiet rfl (gated e { built with })
  | frmBegin n => exact recordAfter_frmBegin hf e
  | frmData x => exact recordAfter_frmData hf e
  | _ => exact .quiet rfl (gated e ⟨hf, id⟩)

theorem recordAfter_of_execWord {w : Word} (e : execWord w s = .next t) :
    s.RecordAfter w (decode w) t := by
  rcases execWord_cases w s with ⟨i, hd, ex⟩ | ⟨r, hd, ex⟩ <;> rw [ex] at e <;> rw [hd]
  · rw [← decodeThenEncode w i hd]
    exact recordAfter_of_exec hf e
  · cases (illegalCommand_ready hf w).symm.trans e
    exact .raised .illegalCmd rfl rfl

end

namespace State.RecordAfter

variable {s t : State} {w : Word} {d : Decoded} (h : s.RecordAfter w d t)
include h

/-- The fault latched is the one that the word raises. -/
theorem latched_iff (c : Cause) :
    (t.flt = true ∧ t.fcode = faultCode c ∧ t.finfo = w) ↔ s.causeOf d = some c := by
  rcases h with ⟨c', cause, rfl⟩ | ⟨noCause, noFault⟩
  · rw [cause, Option.some_inj]
    exact ⟨fun ⟨_, code, _⟩ => faultCode_injective code, fun same => ⟨rfl, same ▸ rfl, rfl⟩⟩
  · simp [noCause, noFault.ready]

/-- R171: the word is what is recorded, and codes 5 to 15 are never produced. -/
theorem record_of_faulted (fault : t.flt = true) :
    t.finfo = w ∧ (t.fcode = 1 ∨ t.fcode = 2 ∨ t.fcode = 3 ∨ t.fcode = 4) := by
  rcases h with ⟨c, -, rfl⟩ | ⟨-, noFault⟩
  · exact ⟨rfl, by cases c <;> simp [faultCode]⟩
  · exact Bool.noConfusion (fault.symm.trans noFault.ready)

/-- R171: the record is empty when no fault is latched, if it was legal before. -/
theorem record_of_ready (legal : s.RecordLegal) (ready : t.flt = false) :
    t.fcode = 0 ∧ t.finfo = 0 := by
  rcases h with ⟨c, -, rfl⟩ | ⟨-, noFault⟩
  · exact Bool.noConfusion ready
  · exact (noFault.legal legal).1 ready

end State.RecordAfter

/-- Settles O30: a word latches the fault that it raises and no other, and `State.causeOf` says for
each of the four when it is raised. -/
theorem faultCodesHaveTheirCauses : Obligations.FaultCodesHaveTheirCauses := by
  intro s w rest t hp hf e
  rw [step_command hp] at e
  have after := recordAfter_of_execWord (s := s.setPending rest) hf e
  exact ⟨(after.latched_iff .illegalCmd).trans (causeOf_eq_illegalCmd_iff _ _),
    (after.latched_iff .frmOpen).trans (causeOf_eq_frmOpen_iff _ _),
    (after.latched_iff .frmClosed).trans (causeOf_eq_frmClosed_iff _ _),
    (after.latched_iff .outOvf).trans (causeOf_eq_outOvf_iff _ _),
    after.record_of_faulted, after.record_of_ready⟩

end Sys2Proof.Machine
end

section
/-!
The two reset events (spec 70_reset_and_hazards R195): the hardware event and the command `SYS.RST`
are one operation, `State.resetBlock`, on the state with the event taken.
-/

namespace Sys2Proof.Machine

/-- `SYS.RST` resets the block (R136), whatever state it is in. -/
theorem exec_sysRst (s : State) : exec .sysRst s = .next s.resetBlock := rfl

/-- Once the hardware reset event is taken, the block does what it does on `SYS.RST` (R195). -/
theorem step_reset_eq_exec_sysRst {s : State} {rest : List HostEvent}
    (hp : s.pending = .reset :: rest) : step s = exec .sysRst (s.setPending rest) :=
  (step_reset hp).trans (exec_sysRst _).symm

/-- Settles O5: both resets are `State.resetBlock`, which gives every piece of state its reset value
and leaves the command port alone; the initial state has the same values. -/
theorem bothResetsAreTheSame : Obligations.BothResetsAreTheSame := by
  obtain ⟨initial_atReset, -⟩ := resetValuesAndStatus
  refine ⟨fun s rest hp => ⟨step_reset_eq_exec_sysRst hp, ?_⟩, initial_atReset⟩
  exact ⟨_, step_reset hp, resetBlock_atReset _, resetBlock_samePort _⟩

end Sys2Proof.Machine
end
